-- ==== Sys2Proof/Word.lean ====
section
/-! DEFINITION. The word types of KEYBUS-CORE: bytes, 32-bit words and 16-byte frames. -/

namespace Sys2Proof

/-- Eight bits: a register of the host map, a bus byte, a result code (R9, R32). -/
abbrev Byte := BitVec 8

/-- Thirty-two bits: an operation word (R52) or a time stamp (R11). -/
abbrev Word := BitVec 32

/-- A frame array of `FRAME_MAX` = 16 bytes: index 0 the command byte, index 1 the stop-bit slot,
indices 2..15 the payload (R7, R38). -/
abbrev Frame := Vector Byte 16

/-- The frame of sixteen bytes 0x00 (R137). -/
def zeroFrame : Frame := Vector.replicate 16 0x00#8

end Sys2Proof
end

