-- ==== Sys2Proof/Config.lean ====
section
/-! DEFINITION. What an implementation fixes (R7) and what the model leaves free: the parameters the
source prints for sizes as constants, the timing literals and the OPEN parameters as the record `Params`,
the test-vector defaults, and the two free values `Config.params` and `Config.environment`. -/

namespace Sys2Proof

/-! ## Sizes with a value in the source (R7) -/

namespace Config

/-- `FRAME_MAX` (N): bytes of a frame (R7, R8). -/
abbrev frameMax : Nat := 16

/-- `BUF_CAP` (C): frames the FrameBuffer holds (R7, R82). -/
abbrev bufCap : Nat := 10

/-- `MIN_FRAME_BITS`: fewer panel bits make a short frame (R7, R80). -/
abbrev minFrameBits : Nat := 8

/-- `CC_ENTRIES` (K): consumer-path cache entries (R7, R23). -/
abbrev ccEntries : Nat := 8

/-- `WSTR_CAP` (Q): characters the string queue holds (R7, R31). -/
abbrev wstrCap : Nat := 32

/-- `STOP_VALUE`: what the stop-bit slot receives (R7, R70, R73). -/
abbrev stopValue : Byte := 0x01#8

end Config

/-! ## Parameters a machine carries (R7, U4, D9, D13, D28..D30, D38, D42) -/

/-- One row of `KEYMAP`: a character, its binary code and whether it is an alarm key (R109). -/
structure KeyEntry where
  char : Byte
  code : Byte
  alarm : Bool
  deriving DecidableEq, Repr, Inhabited

/-- One pair of `WRITE_OFFSETS`: the target byte and the bit position of its first bit (R110). -/
structure WriteOffset where
  byteOffset : BitVec 5
  bitOffset : Byte
  deriving DecidableEq, Repr, Inhabited

/-- The timing literals. R7: "every timing literal is a parameter with the source value as its value", so
a machine carries its own, and `Timing.source` holds the source's values (U4). -/
structure Timing where
  /-- `T_SAMPLE_US`: nominal delay from an edge to its sample. No rule compares against it (R65, U1). -/
  t_sample_us : Word
  /-- `T_GAP_US`: a clock-high time strictly above it ends a frame (R77). -/
  t_gap_us : Word
  /-- `T_BUS_MS`: the bus-presence timeout (R96). -/
  t_bus_ms : Word
  /-- `T_ALARM_MS`: the debounce after an alarm key (R111). -/
  t_alarm_ms : Word
  deriving DecidableEq, Repr, Inhabited

/-- The values the source prints: 250 µs, 1000 µs, 3000 ms, 500 ms (R7, R134). -/
def Timing.source : Timing := ⟨250#32, 1000#32, 3000#32, 500#32⟩

/-- The parameters a model takes as arguments: the timing literals, and those R7 marks OPEN: "a named parameter the model takes as an argument". Every machine
carries its own in `State.cfg`; no step writes them. -/
structure Params where
  /-- `MAX_PARTITIONS` less one, so that the range 1..8 holds by type (D38). -/
  lastPartition : Fin 8
  /-- `ISR_CODE_A`, `ISR_CODE_B`: the two codes the interrupt path filters (D13). -/
  isr_code_a : Byte
  isr_code_b : Byte
  /-- `STATUS_CMD[0..1]`: the status command of each partition group (D29). -/
  status_cmd : Vector Byte 2
  /-- `WRITE_OFFSETS[0..3]` (D28). -/
  write_offsets : Vector WriteOffset 4
  /-- `KEYMAP`, the first row of a character counting (D30). -/
  keymap : List KeyEntry
  /-- `WRITE_LINE_PRESENT` (D42). -/
  write_line_present : Bool
  /-- `MODULE_BIT_INVERT`: true stores a module bit as the inverse of the line level (D9). -/
  module_bit_invert : Bool
  /-- The timing literals (R7, U4). -/
  timing : Timing
  deriving DecidableEq, Repr, Inhabited

namespace Params

/-- `MAX_PARTITIONS` (P), in 1..8 (R7, D38). -/
def maxPartitions (p : Params) : Nat := p.lastPartition.val + 1

/-- The digit and symbol rows of R109's default table. PRESUMED there (general knowledge, G1), used by
tests only. -/
def defaultDigits : List KeyEntry :=
  [⟨0x30, 0x00, false⟩, ⟨0x31, 0x05, false⟩, ⟨0x32, 0x0A, false⟩, ⟨0x33, 0x0F, false⟩,
   ⟨0x34, 0x11, false⟩, ⟨0x35, 0x16, false⟩, ⟨0x36, 0x1B, false⟩, ⟨0x37, 0x1C, false⟩,
   ⟨0x38, 0x22, false⟩, ⟨0x39, 0x27, false⟩, ⟨0x2A, 0x28, false⟩, ⟨0x23, 0x2D, false⟩]

/-- The letter and bracket rows of R109's default table, alarm keys F, A, P first (G1). -/
def defaultLetters : List KeyEntry :=
  [⟨0x46, 0xBB, true⟩, ⟨0x66, 0xBB, true⟩, ⟨0x41, 0xDD, true⟩, ⟨0x61, 0xDD, true⟩,
   ⟨0x50, 0xEE, true⟩, ⟨0x70, 0xEE, true⟩, ⟨0x73, 0xAF, false⟩, ⟨0x53, 0xAF, false⟩,
   ⟨0x77, 0xB1, false⟩, ⟨0x57, 0xB1, false⟩, ⟨0x6E, 0xB6, false⟩, ⟨0x4E, 0xB6, false⟩,
   ⟨0x63, 0xBB, false⟩, ⟨0x43, 0xBB, false⟩, ⟨0x72, 0xDA, false⟩, ⟨0x52, 0xDA, false⟩,
   ⟨0x78, 0xE1, false⟩, ⟨0x58, 0xE1, false⟩, ⟨0x5B, 0xD5, false⟩, ⟨0x5D, 0xDA, false⟩,
   ⟨0x7B, 0x70, false⟩, ⟨0x7D, 0xEC, false⟩]

/-- The defaults R7 gives "only for test vectors" (PRESUMED by the spec itself, G1..G5), with
`WRITE_LINE_PRESENT` true as spec/95_test_vectors.md takes it. Only tests use them. -/
def testDefaults : Params where
  lastPartition := 7
  isr_code_a := 0x05#8
  isr_code_b := 0x1B#8
  status_cmd := #v[0x05#8, 0x1B#8]
  write_offsets := #v[⟨2, 9⟩, ⟨3, 17⟩, ⟨8, 57⟩, ⟨9, 65⟩]
  keymap := defaultDigits ++ defaultLetters
  write_line_present := true
  module_bit_invert := true
  timing := Timing.source

end Params

/-! ## What the environment presents (R6, R11, R53) -/

/-- The two ports a word can arrive on (R53). -/
inductive Port where
  /-- The host port, which takes format H. -/
  | host
  /-- The bus front end, which issues format E. -/
  | bus
  deriving DecidableEq, Repr, Inhabited

/-- One presented operation: its port, its word, and the platform's two counters at that instant
(R6, R11, R133). The line levels an EV_TIMER samples are bits of its word (R54). -/
structure Presented where
  port : Port
  word : Word
  now_us : Word
  now_ms : Word
  deriving DecidableEq, Repr, Inhabited

/-- The OPEN parameters of the machine that `State.reset` powers up: a FREE VALUE, so that nothing can
be proved of them beyond their types (log 1, safe). -/
opaque Config.params : Params

/-- The parameters of this hardware: the source's value where the source prints one for a timing literal
("A value printed in the source is the value of this hardware", R7), the free value elsewhere. -/
def Config.hardware : Params := { Config.params with timing := Timing.source }

/-- The n-th operation the environment presents of its own accord: a FREE VALUE. R143: "A model lets
the environment choose any sequence of format E words and any line levels" (log 2, safe). -/
opaque Config.environment : Nat → Presented

end Sys2Proof
end

