-- ==== Sys2Proof/Syntax.lean ====
section
/-! DEFINITION. The operation words as syntax: one constructor per row of spec/opcode_table.json. -/

namespace Sys2Proof

/-- The fifteen operations of R55. Byte operands are unsigned; `clk` and `data` are line levels, true =
high (R54). -/
inductive Instr where
  /-- 0x00 NOP (R107). -/
  | nop
  /-- 0x01 POP, `handlePanel()` (R97). -/
  | pop
  /-- 0x02 MREAD, `handleModule()` (R102). -/
  | mread
  /-- 0x03 CRC, `validCRC()` (R103). -/
  | crc
  /-- 0x04 WKEY, `write(char)` (R112). -/
  | wkey (c : Byte)
  /-- 0x05 WSTR_CLR (R119). -/
  | wstrClr
  /-- 0x06 WSTR_PUSH (R120). -/
  | wstrPush (c : Byte)
  /-- 0x07 WSTR_GO (R121). -/
  | wstrGo
  /-- 0x08 CLR (R104). -/
  | clr (mask : Byte)
  /-- 0x09 RD (R105). -/
  | rd (idx : Byte)
  /-- 0x0A WR (R106). -/
  | wr (idx val : Byte)
  /-- 0x0B RESET (R138). -/
  | reset
  /-- 0x80 EV_RISE (R66). -/
  | evRise
  /-- 0x81 EV_FALL (R67). -/
  | evFall
  /-- 0x82 EV_TIMER (R68). -/
  | evTimer (clk data : Bool)
  deriving DecidableEq, Repr

/-- The port an operation's format belongs to: format H the host's, format E the bus's (R53, R55). -/
def Instr.port : Instr → Port
  | .nop => .host
  | .pop => .host
  | .mread => .host
  | .crc => .host
  | .wkey _ => .host
  | .wstrClr => .host
  | .wstrPush _ => .host
  | .wstrGo => .host
  | .clr _ => .host
  | .rd _ => .host
  | .wr _ _ => .host
  | .reset => .host
  | .evRise => .bus
  | .evFall => .bus
  | .evTimer _ _ => .bus

/-- The row's mnemonic in spec/opcode_table.json. -/
def Instr.mnemonic : Instr → String
  | .nop => "NOP"
  | .pop => "POP"
  | .mread => "MREAD"
  | .crc => "CRC"
  | .wkey _ => "WKEY"
  | .wstrClr => "WSTR_CLR"
  | .wstrPush _ => "WSTR_PUSH"
  | .wstrGo => "WSTR_GO"
  | .clr _ => "CLR"
  | .rd _ => "RD"
  | .wr _ _ => "WR"
  | .reset => "RESET"
  | .evRise => "EV_RISE"
  | .evFall => "EV_FALL"
  | .evTimer _ _ => "EV_TIMER"

end Sys2Proof
end

