-- ==== Sys2Proof/WellFormed.lean ====
section
/-! DEFINITION. What makes an operation, and a set of parameters, well formed. Operand values need no
check: every byte and every level is a legal operand (R42, R54, R59), which the types of `Instr` say. -/

namespace Sys2Proof

/-- An operation is well formed at a port when its format is that port's: "A word of format E presented
on the host port, or a word of format H presented by the bus front end, is illegal" (R53). -/
def Instr.wellFormedAt (p : Port) (i : Instr) : Bool := i.port == p

/-- The condition R110 says a model may check on WRITE_OFFSETS: each bit offset is the first bit of its
byte, `wr_bit = 8*wr_byte - 7`, in a payload byte. No meaning depends on it. -/
def Params.offsetsAligned (p : Params) : Bool :=
  p.write_offsets.toList.all (fun o =>
    decide (2 ≤ o.byteOffset.toNat) && decide (o.bitOffset.toNat + 7 = 8 * o.byteOffset.toNat))

end Sys2Proof
end

