-- ==== Sys2Proof/Decode.lean ====
section
/-! DEFINITION. The decoder of operation words (R52..R58), total and rejecting by name, and the encoder
written from the same tables. -/

namespace Sys2Proof

/-- Why a word is illegal (R57). -/
inductive DecodeError where
  /-- OP 0x0C..0x7F or 0x83..0xFF: a reserved operation code (R57, R58). -/
  | reservedOp
  /-- RSV, bits 7:0, is not zero (R52, R57). -/
  | nonzeroRsv
  /-- A bit of IDX or VAL that the row does not free is not zero (R55, R57). -/
  | nonzeroField
  /-- The word's format is not its port's (R53). -/
  | wrongPort
  deriving DecidableEq, Repr

/-! ## Fields (R52) -/

/-- OP, bits 31:24. -/
def fieldOp (w : Word) : Byte := w.extractLsb' 24 8

/-- IDX, bits 23:16. -/
def fieldIdx (w : Word) : Byte := w.extractLsb' 16 8

/-- VAL, bits 15:8. -/
def fieldVal (w : Word) : Byte := w.extractLsb' 8 8

/-- RSV, bits 7:0. -/
def fieldRsv (w : Word) : Byte := w.extractLsb' 0 8

/-- A word from its four fields (R52). -/
def ofFields (op idx val rsv : Byte) : Word := op ++ idx ++ val ++ rsv

/-! ## Decoder -/

/-- `i` where the fields the row does not free are zero, a named rejection where they are not (R55). -/
def freed (zero : Bool) (i : Instr) : Except DecodeError Instr :=
  if zero then .ok i else .error .nonzeroField

/-- The row OP selects, given IDX and VAL (R55). -/
def decodeOp (op idx val : Byte) : Except DecodeError Instr :=
  if op = 0x00#8 then freed (idx == 0 && val == 0) .nop
  else if op = 0x01#8 then freed (idx == 0 && val == 0) .pop
  else if op = 0x02#8 then freed (idx == 0 && val == 0) .mread
  else if op = 0x03#8 then freed (idx == 0 && val == 0) .crc
  else if op = 0x04#8 then freed (idx == 0) (.wkey val)
  else if op = 0x05#8 then freed (idx == 0 && val == 0) .wstrClr
  else if op = 0x06#8 then freed (idx == 0) (.wstrPush val)
  else if op = 0x07#8 then freed (idx == 0 && val == 0) .wstrGo
  else if op = 0x08#8 then freed (idx == 0) (.clr val)
  else if op = 0x09#8 then freed (val == 0) (.rd idx)
  else if op = 0x0A#8 then freed true (.wr idx val)
  else if op = 0x0B#8 then freed (idx == 0 && val == 0) .reset
  else if op = 0x80#8 then freed (idx == 0 && val == 0) .evRise
  else if op = 0x81#8 then freed (idx == 0 && val == 0) .evFall
  else if op = 0x82#8 then
    freed (idx &&& 0xFE#8 == 0 && val &&& 0xFE#8 == 0) (.evTimer (idx.getLsbD 0) (val.getLsbD 0))
  else .error .reservedOp

/-- The operation a word stands for, whatever its port (R55..R58). -/
def decode (w : Word) : Except DecodeError Instr :=
  match decodeOp (fieldOp w) (fieldIdx w) (fieldVal w) with
  | .error e => .error e
  | .ok i => if fieldRsv w = 0 then .ok i else .error .nonzeroRsv

/-- The operation a word stands for on the port it arrives at: a word of the other port's format is
illegal (R53, R57). -/
def decodeAt (p : Port) (w : Word) : Except DecodeError Instr :=
  match decode w with
  | .error e => .error e
  | .ok i => if i.wellFormedAt p then .ok i else .error .wrongPort

/-- The port a word's format belongs to: OP 0x00..0x7F the host's, 0x80..0xFF the bus's (R53). -/
def portOfWord (w : Word) : Port := if w.getLsbD 31 then .bus else .host

/-! ## Encoder -/

/-- A line level as the byte whose bit 0 carries it (R54). -/
def levelByte (b : Bool) : Byte := if b then 0x01#8 else 0x00#8

/-- The word of an operation (R52, R55). -/
def encode : Instr → Word
  | .nop => ofFields 0x00 0x00 0x00 0x00
  | .pop => ofFields 0x01 0x00 0x00 0x00
  | .mread => ofFields 0x02 0x00 0x00 0x00
  | .crc => ofFields 0x03 0x00 0x00 0x00
  | .wkey c => ofFields 0x04 0x00 c 0x00
  | .wstrClr => ofFields 0x05 0x00 0x00 0x00
  | .wstrPush c => ofFields 0x06 0x00 c 0x00
  | .wstrGo => ofFields 0x07 0x00 0x00 0x00
  | .clr mask => ofFields 0x08 0x00 mask 0x00
  | .rd idx => ofFields 0x09 idx 0x00 0x00
  | .wr idx val => ofFields 0x0A idx val 0x00
  | .reset => ofFields 0x0B 0x00 0x00 0x00
  | .evRise => ofFields 0x80 0x00 0x00 0x00
  | .evFall => ofFields 0x81 0x00 0x00 0x00
  | .evTimer clk data => ofFields 0x82 (levelByte clk) (levelByte data) 0x00

/-! ## The match and mask table (R55, R56) -/

/-- One row of R55 and R56: mnemonic, the port of its format, match and mask. -/
structure OpcodeRow where
  mnemonic : String
  port : Port
  matchBits : Word
  maskBits : Word
  deriving DecidableEq, Repr

/-- The fifteen rows of R56, in its order. The decoder does not use them: that it agrees with them is
a statement. -/
def opcodeRows : List OpcodeRow :=
  [⟨"NOP", .host, 0x00000000#32, 0xFFFFFFFF#32⟩,
   ⟨"POP", .host, 0x01000000#32, 0xFFFFFFFF#32⟩,
   ⟨"MREAD", .host, 0x02000000#32, 0xFFFFFFFF#32⟩,
   ⟨"CRC", .host, 0x03000000#32, 0xFFFFFFFF#32⟩,
   ⟨"WKEY", .host, 0x04000000#32, 0xFFFF00FF#32⟩,
   ⟨"WSTR_CLR", .host, 0x05000000#32, 0xFFFFFFFF#32⟩,
   ⟨"WSTR_PUSH", .host, 0x06000000#32, 0xFFFF00FF#32⟩,
   ⟨"WSTR_GO", .host, 0x07000000#32, 0xFFFFFFFF#32⟩,
   ⟨"CLR", .host, 0x08000000#32, 0xFFFF00FF#32⟩,
   ⟨"RD", .host, 0x09000000#32, 0xFF00FFFF#32⟩,
   ⟨"WR", .host, 0x0A000000#32, 0xFF0000FF#32⟩,
   ⟨"RESET", .host, 0x0B000000#32, 0xFFFFFFFF#32⟩,
   ⟨"EV_RISE", .bus, 0x80000000#32, 0xFFFFFFFF#32⟩,
   ⟨"EV_FALL", .bus, 0x81000000#32, 0xFFFFFFFF#32⟩,
   ⟨"EV_TIMER", .bus, 0x82000000#32, 0xFFFEFEFF#32⟩]

/-- A word selects a row when `(w & mask) = match` (R56). -/
def OpcodeRow.selects (r : OpcodeRow) (w : Word) : Bool := w &&& r.maskBits == r.matchBits

/-! ## The host's question -/

/-- The instruction the decoder reads from `nbits` bits `w`, every bit above `nbits` zero; none where
it refuses. A word is 32 bits with bit 31 most significant, whatever its transport (R41). -/
def decodeTableWord (nbits w : Nat) : Option Instr :=
  match decode (BitVec.ofNat 32 (w % 2 ^ nbits)) with
  | .ok i => some i
  | .error _ => none

end Sys2Proof
end

