-- ==== Sys2Proof/Machine/State.lean ====
section
/-! DEFINITION. The state of KEYBUS-CORE as plain data: every element of R16..R31 under the spec's own
name, grouped by unit, with the model's own step interface beside them; the reset state of R137. -/

namespace Sys2Proof.Machine

/-! ## BitSampler (R16..R18) -/

/-- BitSampler state: timing, panel accumulator, module accumulator. -/
structure BitSampler where
  /-- `now_us` of the last rising edge (R16). -/
  t_rise : Word
  /-- The clock-high time measured at the last falling edge (R16). -/
  clk_high_time : Word
  /-- The one-shot delay timer is pending (R16). -/
  tmr_armed : Bool
  /-- `now_us` at which the pending timer was armed (R16). -/
  tmr_t_arm : Word
  /-- The panel frame being captured (R17). -/
  acc_p : Frame
  /-- `bitTotal` of the panel stream, saturating at 255 (R17, R69). -/
  p_bit_total : Byte
  /-- Bits already shifted into the current panel byte, 0..7 (R17). -/
  p_bit_count : BitVec 3
  /-- Index of the current panel byte, 0..16 (R17). -/
  p_byte_count : BitVec 5
  /-- The module frame being captured (R18). -/
  acc_m : Frame
  /-- Captured module bits (R18). -/
  m_bit_total : Byte
  /-- Bits already shifted into the current module byte, 0..7 (R18). -/
  m_bit_count : BitVec 3
  /-- Index of the current module byte, 0..16 (R18). -/
  m_byte_count : BitVec 5
  /-- At least one module bit was pulled low (R18). -/
  m_detect : Bool
  deriving DecidableEq, Repr

/-! ## FrameBuffer and bus presence (R19..R21) -/

/-- FrameBuffer state. -/
structure FrameBuffer where
  /-- Ten slots of sixteen bytes (R19). -/
  buf_data : Vector Frame 10
  /-- The byte count of each slot (R19). -/
  buf_bytes : Vector (BitVec 5) 10
  /-- The bit count of each slot (R19). -/
  buf_bits : Vector Byte 10
  /-- Slots written in the current drain cycle, 0..10 (R19). -/
  buf_len : BitVec 4
  /-- The consumer's read index in the current drain cycle, 0..9 (R19). -/
  buf_rd : BitVec 4
  /-- The sticky overflow flag (R19). -/
  ovf : Bool
  /-- The command code of the most recently buffered frame (R20). -/
  cur_cmd : Byte
  deriving DecidableEq, Repr

/-- Bus-presence state (R21). -/
structure Presence where
  /-- `now_ms` of the last frame completion. -/
  t_gap : Word
  /-- A completion has occurred since reset. -/
  gap_seen : Bool
  /-- The derived connected state. -/
  connected : Bool
  /-- The changed-flag. -/
  conn_chg : Bool
  deriving DecidableEq, Repr

/-! ## RedundancyFilter (R22..R24) -/

/-- A redundancy cache: a valid bit and sixteen bytes (R22, R87). -/
structure Cache where
  valid : Bool
  data : Frame
  deriving DecidableEq, Repr

/-- A consumer-path entry: `cc_code[k]`, `cc_len[k]`, and `cc_valid[k]`, `cc_data[k]` as its cache (R23). -/
structure CcEntry where
  code : Byte
  len : Byte
  cache : Cache
  deriving DecidableEq, Repr

/-- RedundancyFilter state. -/
structure FilterState where
  /-- The cache of `ISR_CODE_A` (R22). -/
  cacheA : Cache
  /-- The cache of `ISR_CODE_B` (R22). -/
  cacheB : Cache
  /-- The eight consumer-path entries (R23). -/
  cc : Vector CcEntry 8
  /-- The enable bits of the entries (R23). -/
  cc_en : Byte
  /-- The module cache (R24). -/
  mcache : Cache
  deriving DecidableEq, Repr

/-! ## Consumer-visible output, control bits and tables (R25..R28) -/

/-- Panel and module output. -/
structure OutputState where
  /-- The latest drained panel frame (R25). -/
  panel_data : Frame
  panel_bytes : BitVec 5
  panel_bits : Byte
  /-- The CRC result on the panel output (R25). -/
  crc_ok : Bool
  /-- The first validated frame has been seen (R25). -/
  settled : Bool
  /-- The command byte of the last frame POP accepted (R25). -/
  last_disp_cmd : Byte
  /-- The latest module frame (R26). -/
  mod_data : Frame
  mod_bytes : BitVec 5
  mod_bits : Byte
  /-- The `captured` flag (R26). -/
  mod_capt : Bool
  deriving DecidableEq, Repr

/-- Control bits and host-loaded tables. Bit c of a table is bit c mod 8 of its byte c div 8, as the
register map of R32 lays it out. -/
structure ControlState where
  /-- Command codes without a checksum byte, 256 bits (R27). -/
  crc_exempt : Vector Byte 32
  /-- Command codes that are panel queries, 256 bits (R27). -/
  query_map : Vector Byte 32
  /-- Modules-enabled mode (R28). -/
  mod_en : Bool
  /-- "Process redundant data" mode (R28). -/
  proc_red : Bool
  /-- The virtual keypad is enabled (R28). -/
  wr_en : Bool
  deriving DecidableEq, Repr

/-! ## WriteEngine and string queue (R29..R31) -/

/-- The values of `wr_state`, in the order of their codes 0..7 (R29). -/
inductive WrState where
  | idle
  | armAlarm
  | armReg
  | emitAlarm
  | emitReg
  | repeatArmed
  | emitRepeat
  | astHold
  deriving DecidableEq, Repr

/-- WriteEngine state. -/
structure WriteEngine where
  wr_state : WrState
  /-- The binary code to emit (R30). -/
  wr_key : Byte
  /-- The target partition, 1..8 (R30). -/
  wr_part : BitVec 4
  /-- The target byte inside the frame (R30). -/
  wr_byte : BitVec 5
  /-- The target bit inside the frame (R30). -/
  wr_bit : Byte
  /-- The partition group, one bit (R30). -/
  wr_group : Bool
  /-- The armed key is the acknowledgement-wait key (R30). -/
  wr_ast : Bool
  /-- The frame in which it was written has not yet completed (R30). -/
  ast_skip : Bool
  /-- A partition-select character has been received (R30). -/
  part_prefix : Bool
  /-- `now_ms` of the last alarm-key arming (R30). -/
  t_alarm : Word
  /-- An alarm key has been armed since reset (R30). -/
  alarm_seen : Bool
  /-- The write-line output, true = asserting the bus low (R12, R30). -/
  wr_line : Bool
  deriving DecidableEq, Repr

/-- The string queue (R31). -/
structure StringQueue where
  wstr_q : Vector Byte 32
  wstr_len : BitVec 6
  wstr_cur : BitVec 6
  wstr_active : Bool
  deriving DecidableEq, Repr

/-! ## The step interface: the model's own fields -/

/-- The conditions of R125, in the order of their codes 1..7. A condition transfers no control (R124).
UnknownKey and IllegalWord have a code and a visible record, the result 0x11 or 0xFF, but no step raises
them: C9 and R57 say so (log 5, log 11). -/
inductive Condition where
  | frameOverflow
  | redundantFrame
  | checksumInvalid
  | busDisconnected
  | shortFrame
  | unknownKey
  | illegalWord
  deriving DecidableEq, Repr

/-- The inputs and outputs of the latest step: the platform's counters (R11), the 8-bit result (R60) and
the conditions raised (R125). Not state of the block (R133); log 4 and log 5. -/
structure StepIO where
  now_us : Word
  now_ms : Word
  result : Byte
  raised : List Condition
  deriving DecidableEq, Repr

/-- What is yet to arrive at the ports: operations already waiting, then the environment's own free
draws, of which `drawn` have been used (log 2). -/
structure EnvState where
  pending : List Presented
  drawn : Nat
  deriving DecidableEq, Repr

/-- The whole machine. -/
structure State where
  /-- The timing and OPEN parameters of this machine (R7, log 1). No step writes them. -/
  cfg : Params
  /-- The environment (log 2). -/
  env : EnvState
  /-- The latest step's inputs and outputs. -/
  io : StepIO
  /-- BitSampler. -/
  bs : BitSampler
  /-- FrameBuffer. -/
  fb : FrameBuffer
  /-- Bus presence. -/
  bus : Presence
  /-- RedundancyFilter. -/
  rf : FilterState
  /-- Consumer-visible output. -/
  out : OutputState
  /-- Control bits and tables. -/
  ctl : ControlState
  /-- WriteEngine. -/
  we : WriteEngine
  /-- String queue. -/
  sq : StringQueue
  deriving DecidableEq, Repr

/-! ## Outcomes -/

/-- Why the machine stops with a fault: never. R124: "The block has no trap, no exception vector and no
fatal error". No constructor, so no step can end in a fault; safe, since nothing is stopped. -/
inductive Fault where
  deriving DecidableEq, Repr

/-- Why the model gives an instruction no meaning. -/
inductive Refusal where
  /-- Raised by an arm of `exec` whose instruction has no meaning yet. No arm raises it: all fifteen
  have their meaning. Safe: it stops where the hardware would go on. -/
  | notModelled (mnemonic : String)
  deriving DecidableEq, Repr

/-- One step's outcome. -/
abbrev StepOutcome := Host.Outcome State Fault Refusal

/-! ## Reset (R137, R138) -/

/-- An invalid cache of zeros (R137). -/
def emptyCache : Cache := ⟨false, zeroFrame⟩

/-- The machine with parameters `p` after the reset step of R137, nothing presented and no step taken. -/
def powerUp (p : Params) : State where
  cfg := p
  env := { pending := [], drawn := 0 }
  io := { now_us := 0, now_ms := 0, result := 0, raised := [] }
  bs :=
    { t_rise := 0, clk_high_time := 0, tmr_armed := false, tmr_t_arm := 0
      acc_p := zeroFrame, p_bit_total := 0, p_bit_count := 0, p_byte_count := 0
      acc_m := zeroFrame, m_bit_total := 0, m_bit_count := 0, m_byte_count := 0
      m_detect := false }
  fb :=
    { buf_data := Vector.replicate 10 zeroFrame, buf_bytes := Vector.replicate 10 0
      buf_bits := Vector.replicate 10 0, buf_len := 0, buf_rd := 0, ovf := false, cur_cmd := 0 }
  bus := { t_gap := 0, gap_seen := false, connected := false, conn_chg := false }
  rf :=
    { cacheA := emptyCache, cacheB := emptyCache
      cc := Vector.replicate 8 { code := 0, len := 0, cache := emptyCache }
      cc_en := 0, mcache := emptyCache }
  out :=
    { panel_data := zeroFrame, panel_bytes := 0, panel_bits := 0, crc_ok := false
      settled := false, last_disp_cmd := 0
      mod_data := zeroFrame, mod_bytes := 0, mod_bits := 0, mod_capt := false }
  ctl :=
    { crc_exempt := Vector.replicate 32 0, query_map := Vector.replicate 32 0
      mod_en := false, proc_red := true, wr_en := p.write_line_present }
  we :=
    { wr_state := .idle, wr_key := 0, wr_part := 1, wr_byte := 0, wr_bit := 0
      wr_group := false, wr_ast := false, ast_skip := false, part_prefix := false
      t_alarm := 0, alarm_seen := false, wr_line := false }
  sq := { wstr_q := Vector.replicate 32 0, wstr_len := 0, wstr_cur := 0, wstr_active := false }

/-- The machine right after power-up: the reset step of R137 on a machine whose OPEN parameters are the
free value `Config.params`, with the source's timing (R7, log 1). -/
def State.reset : State := powerUp Config.hardware

end Sys2Proof.Machine
end

