-- ==== Sys2Proof/Machine/Ops.lean ====
section
/-! DEFINITION. The named operations every unit shares: modular time, saturating counters, bit shifts,
array access, and the one way a step raises a condition and sets its result. -/

namespace Sys2Proof.Machine

/-! ## Arithmetic (R10) -/

/-- `a -_32 b`: the elapsed time between two 32-bit time stamps, modulo 2^32 (R10, R133). -/
abbrev elapsed (now since : Word) : Word := now - since

/-- `sat8(v + 1)`: the count of one more bit, saturating at 255 (R10, R69, R73). -/
def satIncr (v : Byte) : Byte := if v = 0xFF#8 then 0xFF#8 else v + 1

/-- `((b << 1) | d) mod 256`: the next bit, most significant first (R39, R69, R73). -/
def shiftIn (b : Byte) (d : Bool) : Byte := (b <<< 1) ||| (if d then 0x01#8 else 0x00#8)

/-! ## Arrays -/

/-- Element i of an array, `d` beyond its end. No run indexes beyond an end (log 6). -/
def vget {α : Type} {n : Nat} (v : Vector α n) (i : Nat) (d : α) : α := v[i]?.getD d

/-- An array with element i replaced, unchanged beyond its end (log 6). -/
def vset {α : Type} {n : Nat} (v : Vector α n) (i : Nat) (x : α) : Vector α n := v.setIfInBounds i x

/-- Byte i of a frame (R38). -/
def byteAt (f : Frame) (i : Nat) : Byte := vget f i 0x00#8

/-- A frame with byte i replaced. -/
def setByte (f : Frame) (i : Nat) (b : Byte) : Frame := vset f i b

/-- Bit c of a host-loaded table, laid out as the registers of R32: bit c mod 8 of byte c div 8 (R27). -/
def tableBit (t : Vector Byte 32) (c : Byte) : Bool := (vget t (c.toNat / 8) 0).getLsbD (c.toNat % 8)

/-! ## Parameters as operands (R109, R110) -/

/-- `STATUS_CMD[g]` for the partition group g (R110). -/
def statusCmd (p : Params) (group : Bool) : Byte :=
  if group then vget p.status_cmd 1 0 else vget p.status_cmd 0 0

/-- `WRITE_OFFSETS[pair]` (R110). -/
def writeOffset (p : Params) (pair : Nat) : WriteOffset := vget p.write_offsets pair ⟨0, 0⟩

/-- The row of `KEYMAP` for a character, if the map knows it (R109, R111). -/
def keyOf (p : Params) (c : Byte) : Option KeyEntry := p.keymap.find? (fun e => e.char == c)

/-! ## Conditions and results (R60, R124, R125) -/

/-- The code of a condition (R125). -/
def conditionCode : Condition → Nat
  | .frameOverflow => 1
  | .redundantFrame => 2
  | .checksumInvalid => 3
  | .busDisconnected => 4
  | .shortFrame => 5
  | .unknownKey => 6
  | .illegalWord => 7

/-- `raise X()`: "it changes no state beyond what the raising rule writes and transfers no control"
(R124). The model lists it in the step's outputs. -/
def raise (c : Condition) (s : State) : State :=
  { s with io := { s.io with raised := s.io.raised ++ [c] } }

/-- `raise X()` under a condition. -/
def raiseIf (b : Bool) (c : Condition) (s : State) : State := if b then raise c s else s

/-- The start of a step: nothing raised yet. -/
def beginStep (s : State) : State := { s with io := { s.io with raised := [] } }

/-- `result <- v` (R10, R60). -/
def setResult (s : State) (v : Byte) : State := { s with io := { s.io with result := v } }

/-- The end of a step: its next state, with the result (R6, R60). Every meaning ends here, since no
condition stops the block (R124). -/
def conclude (r : State × Byte) : StepOutcome := .next (setResult r.1 r.2)

/-- An illegal word: "the step changes no state and sets `result <- 0xFF`", and "No illegal word raises any
condition of 60_exceptions.md" (R57, log 11). -/
def illegalWord (s : State) : StepOutcome := conclude (beginStep s, 0xFF#8)

/-! ## What the step takes from the ports (R6, R11, R53) -/

/-- The next operation presented, and the machine without it: the first one waiting, else the next free
draw of the environment (log 2). -/
def takePresented (s : State) : Presented × State :=
  match s.env.pending with
  | p :: rest => (p, { s with env := { s.env with pending := rest } })
  | [] => (Config.environment s.env.drawn, { s with env := { s.env with drawn := s.env.drawn + 1 } })

/-- The step inputs `now_us` and `now_ms` of an operation (R11). -/
def latchInputs (p : Presented) (s : State) : State :=
  { s with io := { s.io with now_us := p.now_us, now_ms := p.now_ms } }

/-- An operation presented ahead of those that wait, at the instant of the latest step. -/
def presentFirst (port : Port) (w : Word) (s : State) : State :=
  { s with env := { s.env with pending := ⟨port, w, s.io.now_us, s.io.now_ms⟩ :: s.env.pending } }

end Sys2Proof.Machine
end

