-- ==== Sys2Proof/Machine/Flags.lean ====
section
/-! DEFINITION. The flag registers of R32 (CTRL, STATUS, WR_STATE, LINES) as bytes, and the rules that
derive flags: bus presence (R96) and the checksum (R91). -/

namespace Sys2Proof.Machine

/-- The code of a WriteEngine state (R29). -/
def wrStateCode : WrState → BitVec 3
  | .idle => 0
  | .armAlarm => 1
  | .armReg => 2
  | .emitAlarm => 3
  | .emitReg => 4
  | .repeatArmed => 5
  | .emitRepeat => 6
  | .astHold => 7

/-- WR_READY, the source's `writeReady`: the engine is IDLE (R32, R108). -/
def wrReady (w : WriteEngine) : Bool := w.wr_state == .idle

/-- CTRL, register 0x00: bit0 `mod_en`, bit1 `proc_red`, bit2 `wr_en`, bits 7:3 zero (R32). -/
def ctrlByte (c : ControlState) : Byte :=
  BitVec.ofBoolListLE [c.mod_en, c.proc_red, c.wr_en, false, false, false, false, false]

/-- STATUS, register 0x01 (R32). -/
def statusByte (s : State) : Byte :=
  BitVec.ofBoolListLE [s.fb.ovf, s.bus.connected, s.bus.conn_chg, s.out.mod_capt, wrReady s.we,
    s.out.settled, s.sq.wstr_active, s.out.crc_ok]

/-- WR_STATE, register 0x0A: bits 2:0 `wr_state`, then `part_prefix`, `wr_ast`, `ast_skip`, `wr_group`,
bit 7 zero (R32). -/
def wrStateByte (w : WriteEngine) : Byte :=
  BitVec.ofBoolListLE [(wrStateCode w.wr_state).getLsbD 0, (wrStateCode w.wr_state).getLsbD 1,
    (wrStateCode w.wr_state).getLsbD 2, w.part_prefix, w.wr_ast, w.ast_skip, w.wr_group, false]

/-- LINES, register 0x81: bit0 `wr_line`, bit1 `tmr_armed`, bits 7:2 zero (R32). -/
def linesByte (s : State) : Byte :=
  BitVec.ofBoolListLE [s.we.wr_line, s.bs.tmr_armed, false, false, false, false, false, false]

/-! ## Bus presence (R96) -/

/-- `conn_now`: a completion has been seen and the time since the last one is at most `T_BUS_MS`, here
`limit` (R96). -/
def connNow (limit now_ms : Word) (b : Presence) : Bool :=
  b.gap_seen && decide (elapsed now_ms b.t_gap ≤ limit)

/-- `PresenceUpdate()`: the connected state follows `conn_now`, and a change sets `conn_chg` (R96). -/
def presenceUpdate (limit now_ms : Word) (b : Presence) : Presence :=
  if connNow limit now_ms b = b.connected then b
  else { b with connected := connNow limit now_ms b, conn_chg := true }

/-! ## Checksum (R91..R93) -/

/-- The sum modulo 256 of bytes 0..k-1 of a frame except index 1, the stop-bit slot (R91). -/
def checksum (f : Frame) : Nat → Byte
  | 0 => 0
  | k + 1 => if k = 1 then checksum f k else checksum f k + byteAt f k

/-- `CrcValid(data, n)` with the exemption table of R27: an exempt command is valid; else fewer than
three bytes are invalid; else the sum of bytes 0..n-2 must equal byte n-1 (R91..R93). -/
def crcValid (exempt : Vector Byte 32) (f : Frame) (n : Nat) : Bool :=
  if tableBit exempt (byteAt f 0) then true
  else if n < 3 then false
  else checksum f (n - 1) == byteAt f (n - 1)

end Sys2Proof.Machine
end

