-- ==== Sys2Proof/Machine/Operands.lean ====
section
/-! DEFINITION. The one operand space of the block: the 256 host registers of R32, read by RD and
written by WR (R36, R105, R106). -/

namespace Sys2Proof.Machine

/-- The consumer-path entry k; out of range, an empty entry (log 6). -/
def ccEntry (f : FilterState) (k : Nat) : CcEntry := vget f.cc k ⟨0, 0, emptyCache⟩

/-- `MemRead(r, 1)`: the register at index r, the table of R32 row by row; 0x85..0xFF read 0x00. -/
def memRead (s : State) (r : Byte) : Byte :=
  let i := r.toNat
  if i = 0x00 then ctrlByte s.ctl
  else if i = 0x01 then statusByte s
  else if i = 0x02 then s.fb.buf_len.setWidth 8
  else if i = 0x03 then s.fb.buf_rd.setWidth 8
  else if i = 0x04 then s.out.panel_bytes.setWidth 8
  else if i = 0x05 then s.out.panel_bits
  else if i = 0x06 then s.out.mod_bytes.setWidth 8
  else if i = 0x07 then s.out.mod_bits
  else if i = 0x08 then s.fb.cur_cmd
  else if i = 0x09 then s.out.last_disp_cmd
  else if i = 0x0A then wrStateByte s.we
  else if i = 0x0B then s.we.wr_part.setWidth 8
  else if i = 0x0C then s.we.wr_key
  else if i = 0x0D then s.sq.wstr_len.setWidth 8
  else if i = 0x0E then s.sq.wstr_cur.setWidth 8
  else if i = 0x0F then s.bs.p_bit_total
  else if i < 0x20 then byteAt s.out.panel_data (i - 0x10)
  else if i < 0x30 then byteAt s.out.mod_data (i - 0x20)
  else if i < 0x50 then vget s.ctl.crc_exempt (i - 0x30) 0
  else if i < 0x70 then vget s.ctl.query_map (i - 0x50) 0
  else if i < 0x78 then (ccEntry s.rf (i - 0x70)).code
  else if i < 0x80 then (ccEntry s.rf (i - 0x78)).len
  else if i = 0x80 then s.rf.cc_en
  else if i = 0x81 then linesByte s
  else if i = 0x82 then s.bs.p_byte_count.setWidth 8
  else if i = 0x83 then s.bs.m_bit_total
  else if i = 0x84 then s.bs.m_byte_count.setWidth 8
  else 0x00#8

/-- The partition a value selects: itself in 1..P, else 1 (R32 WR_PART, R111). -/
def partitionOf (p : Params) (v : Nat) : BitVec 4 :=
  if 1 ≤ v ∧ v ≤ p.maxPartitions then BitVec.ofNat 4 v else 1#4

/-- CTRL written with v: bits 7:3 ignored, bit 2 hardwired 0 without a write line (R32, R106). -/
def writeCtrl (p : Params) (v : Byte) (c : ControlState) : ControlState :=
  { c with mod_en := v.getLsbD 0, proc_red := v.getLsbD 1,
           wr_en := v.getLsbD 2 && p.write_line_present }

/-- Entry k with its code written: the valid bit is cleared (R32, R106). -/
def writeCcCode (k : Nat) (v : Byte) (f : FilterState) : FilterState :=
  let e := ccEntry f k
  { f with cc := vset f.cc k { e with code := v, cache := { e.cache with valid := false } } }

/-- Entry k with its length written: the valid bit is cleared (R32, R106). -/
def writeCcLen (k : Nat) (v : Byte) (f : FilterState) : FilterState :=
  let e := ccEntry f k
  { f with cc := vset f.cc k { e with len := v, cache := { e.cache with valid := false } } }

/-- `MemWrite(r, 1, v)`: the case list of R106; a read-only or reserved index has no effect (R33, R36). -/
def memWrite (s : State) (r v : Byte) : State :=
  let i := r.toNat
  if i = 0x00 then { s with ctl := writeCtrl s.cfg v s.ctl }
  else if i = 0x0B then { s with we := { s.we with wr_part := partitionOf s.cfg v.toNat } }
  else if i < 0x30 then s
  else if i < 0x50 then { s with ctl := { s.ctl with crc_exempt := vset s.ctl.crc_exempt (i - 0x30) v } }
  else if i < 0x70 then { s with ctl := { s.ctl with query_map := vset s.ctl.query_map (i - 0x50) v } }
  else if i < 0x78 then { s with rf := writeCcCode (i - 0x70) v s.rf }
  else if i < 0x80 then { s with rf := writeCcLen (i - 0x78) v s.rf }
  else if i = 0x80 then { s with rf := { s.rf with cc_en := v } }
  else s

end Sys2Proof.Machine
end

