-- ==== Sys2Proof/Machine/Filter.lean ====
section
/-! DEFINITION. The RedundancyFilter (R87..R90). -/

namespace Sys2Proof.Machine

/-- Bytes 0..n-1 of two frames are equal (R87). -/
def sameBytes (a b : Frame) : Nat → Bool
  | 0 => true
  | n + 1 => sameBytes a b n && (byteAt a n == byteAt b n)

/-- The answer of `IsRedundant(c, cand, L)`: a valid cache equal to the candidate over the first
min(L, 16) bytes (R87). -/
def redundantIn (c : Cache) (cand : Frame) (len : Nat) : Bool :=
  c.valid && sameBytes c.data cand (min len Config.frameMax)

/-- The cache after `IsRedundant(c, cand, L)`: unchanged if redundant, else all sixteen bytes of the
candidate, valid (R87). -/
def cacheAfter (c : Cache) (cand : Frame) (len : Nat) : Cache :=
  if redundantIn c cand len then c else ⟨true, cand⟩

/-- `IsRedundant(c, cand, L)`: the answer and the cache it leaves (R87). -/
def isRedundant (c : Cache) (cand : Frame) (len : Nat) : Bool × Cache :=
  (redundantIn c cand len, cacheAfter c cand len)

/-- The lowest-numbered enabled consumer-path entry whose code is `cmd`, if any (R100). -/
def ccMatch (f : FilterState) (cmd : Byte) : Option Nat :=
  (List.range Config.ccEntries).find? (fun k => f.cc_en.getLsbD k && (ccEntry f k).code == cmd)

/-- Entry k with its cache replaced. -/
def setCcCache (k : Nat) (c : Cache) (f : FilterState) : FilterState :=
  { f with cc := vset f.cc k { ccEntry f k with cache := c } }

/-- The consumer-path filter on a frame: the entry `ccMatch` names, compared over its length; with no
entry the frame passes (R89, R100). -/
def consumerFilter (frame : Frame) (f : FilterState) : Bool × FilterState :=
  match ccMatch f (byteAt frame 0) with
  | none => (false, f)
  | some k =>
    let r := isRedundant (ccEntry f k).cache frame (ccEntry f k).len.toNat
    (r.1, setCcCache k r.2 f)

end Sys2Proof.Machine
end

