-- ==== Sys2Proof/Machine/WriteEngine.lean ====
section
/-! DEFINITION. The WriteEngine: submission (R111), emission (R113..R115), the hold after the
acknowledgement-wait key (R117), key strings (R119..R122), and the meanings of WKEY, WSTR_CLR, WSTR_PUSH
and WSTR_GO. -/

namespace Sys2Proof.Machine

/-! ## Submission -/

/-- The character that selects a partition, `/` (R111). -/
def partitionChar : Byte := 0x2F#8

/-- The acknowledgement-wait key, `*` (R109, R111). -/
def asteriskChar : Byte := 0x2A#8

/-- A decimal digit, `0`..`9` (R111). -/
def isDigit (c : Byte) : Bool := decide (0x30#8 ≤ c) && decide (c ≤ 0x39#8)

/-- `T_ALARM_MS`, here `limit`, has not elapsed since the last alarm key (R111). -/
def debouncing (limit now_ms : Word) (w : WriteEngine) : Bool :=
  w.alarm_seen && decide (elapsed now_ms w.t_alarm < limit)

/-- An alarm key armed (R111). -/
def armAlarmKey (now_ms : Word) (code : Byte) (w : WriteEngine) : WriteEngine :=
  { w with wr_key := code, wr_state := .armAlarm, wr_ast := false, t_alarm := now_ms,
           alarm_seen := true }

/-- The pair index and the group of a partition: (p - 1) mod 4 and (p - 1) div 4, the group one bit
(R110). -/
def pairOf (part : BitVec 4) : Nat := (part.toNat - 1) % 4

/-- The group of a partition (R110). -/
def groupOf (part : BitVec 4) : Bool := (part.toNat - 1) / 4 % 2 == 1

/-- A regular key armed for the partition in `wr_part` (R110, R111). -/
def armRegularKey (p : Params) (c code : Byte) (w : WriteEngine) : WriteEngine :=
  let o := writeOffset p (pairOf w.wr_part)
  { w with wr_key := code, wr_group := groupOf w.wr_part, wr_byte := o.byteOffset,
           wr_bit := o.bitOffset, wr_ast := c == asteriskChar, wr_state := .armReg }

/-- `Submit(c)` once the partition prefix is dealt with: unknown, busy, debounced, or armed (R111). -/
def submitKey (p : Params) (now_ms : Word) (c : Byte) (w : WriteEngine) : WriteEngine × Byte :=
  match keyOf p c with
  | none => (w, 0x11#8)
  | some k =>
    if w.wr_state ≠ .idle then (w, 0x12#8)
    else if debouncing p.timing.t_alarm_ms now_ms w then (w, 0x13#8)
    else if k.alarm then (armAlarmKey now_ms k.code w, 0x10#8)
    else (armRegularKey p c k.code w, 0x10#8)

/-- `Submit(c)`: the engine it leaves and its result code (R111). -/
def submit (p : Params) (wr_en : Bool) (now_ms : Word) (c : Byte) (w : WriteEngine) :
    WriteEngine × Byte :=
  if !wr_en then (w, 0x15#8)
  else if c = partitionChar then ({ w with part_prefix := true }, 0x14#8)
  else if w.part_prefix then
    let w := { w with part_prefix := false }
    if isDigit c then ({ w with wr_part := partitionOf p (c.toNat - 0x30) }, 0x14#8)
    else submitKey p now_ms c w
  else submitKey p now_ms c w

/-- `Submit(c)` on the machine. An unknown key is told by its result alone: "nothing is armed and no
condition is raised" (R111, R112, C9). -/
def submitChar (c : Byte) (s : State) : State × Byte :=
  let r := submit s.cfg s.ctl.wr_en s.io.now_ms c s.we
  ({ s with we := r.1 }, r.2)

/-! ## Emission -/

/-- `wr_line <- NOT wr_key[k]`: asserted for a 0 bit only (R113). -/
def driveBit (k : Nat) (w : WriteEngine) : WriteEngine := { w with wr_line := !w.wr_key.getLsbD k }

/-- The emission of an alarm key at bit position T: key bit 7 at T = 1, key bit 8 - T at T = 2..8; the
first emission ends in REPEAT_ARMED, the repeat in IDLE (R113, R114). -/
def alarmStep (T : Nat) (w : WriteEngine) : WriteEngine :=
  let first := w.wr_state == .armAlarm || w.wr_state == .emitAlarm
  let emitting := w.wr_state == .emitAlarm || w.wr_state == .emitRepeat
  if T = 1 then { driveBit 7 w with wr_state := if first then .emitAlarm else .emitRepeat }
  else if emitting ∧ 2 ≤ T ∧ T ≤ 8 then
    { driveBit (8 - T) w with
      wr_state := if T = 8 then (if w.wr_state = .emitAlarm then .repeatArmed else .idle)
                  else w.wr_state }
  else w

/-- The gate of a regular key: the command byte is complete and is the group's status command, and the
byte counter is the target byte (R113, R115). -/
def regGate (p : Params) (T : Nat) (B : BitVec 5) (cmd : Byte) (w : WriteEngine) : Bool :=
  decide (8 ≤ T) && cmd == statusCmd p w.wr_group && B == w.wr_byte

/-- The end of a regular key: the hold after the acknowledgement-wait key, else IDLE (R113, R117). -/
def endRegular (w : WriteEngine) : WriteEngine :=
  if w.wr_ast then { w with wr_state := .astHold, ast_skip := true } else { w with wr_state := .idle }

/-- The emission of a regular key at bit position T: key bit 7 at `wr_bit`, key bit 7 - (T - wr_bit) at
the next seven, each only through the gate (R113, R115). Sums are not wrapped (log 8). -/
def regularStep (p : Params) (T : Nat) (B : BitVec 5) (cmd : Byte) (w : WriteEngine) : WriteEngine :=
  let b := w.wr_bit.toNat
  if regGate p T B cmd w ∧ T = b then { driveBit 7 w with wr_state := .emitReg }
  else if w.wr_state = .emitReg ∧ regGate p T B cmd w ∧ b < T ∧ T ≤ b + 7 then
    if T = b + 7 then endRegular (driveBit (7 - (T - b)) w) else driveBit (7 - (T - b)) w
  else w

/-- `WriteStep()` at a falling edge, reading T = `p_bit_total`, B = `p_byte_count` and the command byte
`acc_p[0]` as they stand (R113). -/
def writeStep (p : Params) (T : Nat) (B : BitVec 5) (cmd : Byte) (w : WriteEngine) : WriteEngine :=
  match w.wr_state with
  | .armAlarm => alarmStep T w
  | .emitAlarm => alarmStep T w
  | .repeatArmed => alarmStep T w
  | .emitRepeat => alarmStep T w
  | .armReg => regularStep p T B cmd w
  | .emitReg => regularStep p T B cmd w
  | .idle => w
  | .astHold => w

/-! ## Hold release -/

/-- `AsteriskRelease(has_cmd, cmd)` at a completion: the frame that carried the key is skipped, then a
frame of the group's status command frees the engine (R117). -/
def asteriskRelease (p : Params) (hasCmd : Bool) (cmd : Byte) (w : WriteEngine) : WriteEngine :=
  if w.wr_state = .astHold then
    if w.ast_skip then { w with ast_skip := false }
    else if hasCmd ∧ cmd = statusCmd p w.wr_group then { w with wr_state := .idle }
    else w
  else w

/-- The hold release of a completion, while the virtual keypad is enabled: with `wr_en` = 0 the unit is
inert and its state frozen (R108, R149, D44; log 16). -/
def holdRelease (p : Params) (wr_en hasCmd : Bool) (cmd : Byte) (w : WriteEngine) : WriteEngine :=
  if wr_en then asteriskRelease p hasCmd cmd w else w

/-! ## Key strings -/

/-- The queue abandoned: length, cursor and active flag zero, the bytes left as they are (R119, R122). -/
def abandonQueue (q : StringQueue) : StringQueue :=
  { q with wstr_len := 0, wstr_cur := 0, wstr_active := false }

/-- The cursor has reached the terminator: the end of the queue or a 0x00 (R122). -/
def atTerminator (q : StringQueue) : Bool :=
  decide (q.wstr_len ≤ q.wstr_cur) || vget q.wstr_q q.wstr_cur.toNat 0 == 0x00#8

/-- The queue after a drain step whose `Submit` answered r (R122). -/
def queueAfter (r : Byte) (q : StringQueue) : StringQueue :=
  if r = 0x10#8 ∨ r = 0x11#8 ∨ r = 0x14#8 then { q with wstr_cur := q.wstr_cur + 1 }
  else if r = 0x15#8 then abandonQueue q
  else q

/-- `WstrDrainStep()`, at the start of every POP (R122). -/
def wstrDrainStep (s : State) : State :=
  if !s.sq.wstr_active || !wrReady s.we then s
  else if atTerminator s.sq then { s with sq := abandonQueue s.sq }
  else
    let r := submitChar (vget s.sq.wstr_q s.sq.wstr_cur.toNat 0) s
    { r.1 with sq := queueAfter r.2 r.1.sq }

/-- One character appended, unless the write line is off or the queue is full (R120). -/
def pushChar (c : Byte) (s : State) : State × Byte :=
  if !s.ctl.wr_en then (s, 0x15#8)
  else if s.sq.wstr_len.toNat = Config.wstrCap then (s, 0x16#8)
  else
    ({ s with sq := { s.sq with wstr_q := vset s.sq.wstr_q s.sq.wstr_len.toNat c,
                                wstr_len := s.sq.wstr_len + 1 } }, 0x10#8)

/-! ## Meanings -/

/-- WKEY: submit one key (R112). -/
def execWkey (c : Byte) (s : State) : StepOutcome := conclude (submitChar c (beginStep s))

/-- WSTR_CLR: empty the queue (R119). -/
def execWstrClr (s : State) : StepOutcome :=
  conclude ({ beginStep s with sq := abandonQueue s.sq }, 0x00#8)

/-- WSTR_PUSH: append one character (R120). -/
def execWstrPush (c : Byte) (s : State) : StepOutcome := conclude (pushChar c (beginStep s))

/-- WSTR_GO: start draining (R121). -/
def execWstrGo (s : State) : StepOutcome :=
  conclude ({ beginStep s with sq := { s.sq with wstr_active := true } }, 0x00#8)

end Sys2Proof.Machine
end

