-- ==== Sys2Proof/Machine/FrameAssembler.lean ====
section
/-! DEFINITION. The FrameAssembler: `Complete()` and its six parts (R78..R85). It has no word of its own;
EV_TIMER runs it. -/

namespace Sys2Proof.Machine

/-- What admission makes of a completed frame (R78, R80, R81). -/
inductive Admission where
  /-- Fewer than 8 bits: discarded as noise (R80). -/
  | short
  /-- Equal to the cached frame of its code: skipped (R81). -/
  | redundant
  /-- To be appended, or dropped for overflow (R82). -/
  | admitted
  deriving DecidableEq, Repr

/-- `has_cmd`: the frame has at least `MIN_FRAME_BITS` panel bits (R78). -/
def hasCmd (b : BitSampler) : Bool := decide (Config.minFrameBits ≤ b.p_bit_total.toNat)

/-- A redundant candidate is skipped, any other admitted. -/
def admissionOf (redundant : Bool) : Admission := if redundant then .redundant else .admitted

/-- Admission: the short-frame test, then cache A for `ISR_CODE_A`, else cache B for `ISR_CODE_B`, over
all sixteen bytes, with the caches it leaves (R78 part 2, R80, R81). -/
def admitFrame (p : Params) (b : BitSampler) (f : FilterState) : Admission × FilterState :=
  if !hasCmd b then (.short, f)
  else if byteAt b.acc_p 0 = p.isr_code_a then
    let r := isRedundant f.cacheA b.acc_p 16
    (admissionOf r.1, { f with cacheA := r.2 })
  else if byteAt b.acc_p 0 = p.isr_code_b then
    let r := isRedundant f.cacheB b.acc_p 16
    (admissionOf r.1, { f with cacheB := r.2 })
  else (.admitted, f)

/-- The FrameBuffer is at capacity (R82). -/
def bufFull (fb : FrameBuffer) : Bool := fb.buf_len.toNat == Config.bufCap

/-- The accumulated frame appended at slot `buf_len`, or dropped with `ovf` set when the buffer is full
(R78 part 4, R82). -/
def appendFrame (b : BitSampler) (fb : FrameBuffer) : FrameBuffer :=
  if bufFull fb then { fb with ovf := true }
  else
    { fb with
      buf_data := vset fb.buf_data fb.buf_len.toNat b.acc_p
      buf_bytes := vset fb.buf_bytes fb.buf_len.toNat b.p_byte_count
      buf_bits := vset fb.buf_bits fb.buf_len.toNat b.p_bit_total
      cur_cmd := byteAt b.acc_p 0
      buf_len := fb.buf_len + 1 }

/-- The FrameBuffer after a completion: only an admitted frame touches it (R78 part 4, R80, R81). -/
def bufferAfter (a : Admission) (b : BitSampler) (fb : FrameBuffer) : FrameBuffer :=
  if a = .admitted then appendFrame b fb else fb

/-- The module latch: with module capture active and a bit pulled low, the module accumulator becomes the
public module frame; otherwise nothing changes (R78 part 5, R84). -/
def latchModule (modEn : Bool) (b : BitSampler) (o : OutputState) : OutputState :=
  if modEn && b.m_detect then
    { o with mod_data := b.acc_m, mod_bytes := b.m_byte_count, mod_bits := b.m_bit_total,
             mod_capt := true }
  else o

/-- Both accumulators, all six counters and `m_detect` zeroed; timing untouched (R78 part 6, R85). -/
def clearAccumulators (b : BitSampler) : BitSampler :=
  { b with acc_p := zeroFrame, p_bit_total := 0, p_bit_count := 0, p_byte_count := 0,
           acc_m := zeroFrame, m_bit_total := 0, m_bit_count := 0, m_byte_count := 0,
           m_detect := false }

/-- The condition a completion raises: at most one (R125, R127). -/
def completionConditions (a : Admission) (fb : FrameBuffer) : List Condition :=
  match a with
  | .short => [.shortFrame]
  | .redundant => [.redundantFrame]
  | .admitted => if bufFull fb then [.frameOverflow] else []

/-- `Complete()` (R78): presence, admission, hold release, append, module latch, accumulator reset. -/
def complete (s : State) : State :=
  let a := admitFrame s.cfg s.bs s.rf
  { s with
    bus := { s.bus with t_gap := s.io.now_ms, gap_seen := true }
    rf := a.2
    we := holdRelease s.cfg s.ctl.wr_en (hasCmd s.bs) (byteAt s.bs.acc_p 0) s.we
    fb := bufferAfter a.1 s.bs s.fb
    out := latchModule s.ctl.mod_en s.bs s.out
    bs := clearAccumulators s.bs
    io := { s.io with raised := s.io.raised ++ completionConditions a.1 s.fb } }

end Sys2Proof.Machine
end

