-- ==== Sys2Proof/Machine/BitSampler.lean ====
section
/-! DEFINITION. The BitSampler: the timer (R64), the panel stream (R69..R71), the module stream
(R72..R75), and the meanings of EV_RISE, EV_FALL and EV_TIMER (R66..R68). -/

namespace Sys2Proof.Machine

/-- `ArmTimer()`: pending from this instant; an earlier pending expiry is replaced (R64). -/
def armTimer (now_us : Word) (b : BitSampler) : BitSampler :=
  { b with tmr_armed := true, tmr_t_arm := now_us }

/-! ## Panel stream -/

/-- A panel bit shifted into the current byte, most significant first (R69). -/
def panelShift (d : Bool) (b : BitSampler) : BitSampler :=
  let i := b.p_byte_count.toNat
  let acc := setByte b.acc_p i (shiftIn (byteAt b.acc_p i) d)
  if b.p_bit_count.toNat < 7 then { b with acc_p := acc, p_bit_count := b.p_bit_count + 1 }
  else { b with acc_p := acc, p_bit_count := 0, p_byte_count := b.p_byte_count + 1 }

/-- The stop bit: its level is discarded and slot 1 receives `STOP_VALUE` (R69, R70). -/
def panelStop (b : BitSampler) : BitSampler :=
  { b with acc_p := setByte b.acc_p 1 Config.stopValue, p_byte_count := b.p_byte_count + 1,
           p_bit_count := 0 }

/-- `PanelBit(d)`: the stop bit at bitTotal 8, else a stored bit while a byte is left, and the count in
every case (R69..R71). -/
def panelBit (d : Bool) (b : BitSampler) : BitSampler :=
  let stored :=
    if b.p_bit_total.toNat = 8 then panelStop b
    else if b.p_byte_count.toNat < Config.frameMax then panelShift d b
    else b
  { stored with p_bit_total := satIncr b.p_bit_total }

/-! ## Module stream -/

/-- The gate of module capture: modules enabled, buffer depth at most 1, storage left (R72). -/
def moduleGate (modEn : Bool) (depth : Nat) (b : BitSampler) : Bool :=
  modEn && decide (depth ≤ 1) && decide (b.m_byte_count.toNat < Config.frameMax)

/-- The bit stored for a module-line level: its inverse under `MODULE_BIT_INVERT` (R73, D9). -/
def moduleLevel (p : Params) (d : Bool) : Bool := if p.module_bit_invert then !d else d

/-- `ModuleBit(d)` with the gate open: the bit, the detection of a low line, and the stop slot with the
jump to byte 2 at the eighth bit (R73, R74). -/
def moduleShift (p : Params) (d : Bool) (b : BitSampler) : BitSampler :=
  let i := b.m_byte_count.toNat
  let acc := setByte b.acc_m i (shiftIn (byteAt b.acc_m i) (moduleLevel p d))
  let b := { b with m_detect := b.m_detect || !d }
  if b.m_bit_total.toNat = 7 then
    { b with acc_m := setByte acc 1 Config.stopValue, m_bit_count := 0,
             m_byte_count := b.m_byte_count + 2, m_bit_total := satIncr b.m_bit_total }
  else if b.m_bit_count.toNat < 7 then
    { b with acc_m := acc, m_bit_count := b.m_bit_count + 1, m_bit_total := satIncr b.m_bit_total }
  else
    { b with acc_m := acc, m_bit_count := 0, m_byte_count := b.m_byte_count + 1,
             m_bit_total := satIncr b.m_bit_total }

/-- `ModuleBit(d)`: dropped with nothing changed while the gate is closed (R72, R73). -/
def moduleBit (p : Params) (modEn : Bool) (depth : Nat) (d : Bool) (b : BitSampler) : BitSampler :=
  if moduleGate modEn depth b then moduleShift p d b else b

/-! ## Samples -/

/-- A sample in a clock-high half: a panel bit (R68). -/
def samplePanel (d : Bool) (s : State) : State := { s with bs := panelBit d s.bs }

/-- A module bit on the machine. -/
def sampleModule (d : Bool) (s : State) : State :=
  { s with bs := moduleBit s.cfg s.ctl.mod_en s.fb.buf_len.toNat d s.bs }

/-- The clock was high for longer than `T_GAP_US`, strictly (R68, R77). -/
def gapSeen (p : Params) (b : BitSampler) : Bool := decide (p.timing.t_gap_us < b.clk_high_time)

/-- A sample in a clock-low half: the completion after a silence gap, then a module bit (R68, D11). -/
def sampleLow (d : Bool) (s : State) : State :=
  sampleModule d (if gapSeen s.cfg s.bs then complete s else s)

/-- The timer's expiry: nothing if it was not armed, else disarmed and one sample (R65, R68). -/
def timerExpiry (clk data : Bool) (s : State) : State :=
  if !s.bs.tmr_armed then s
  else
    let s := { s with bs := { s.bs with tmr_armed := false } }
    if clk then samplePanel data s else sampleLow data s

/-- The write emission of a falling edge, while the virtual keypad is enabled (R67, R108, R113). -/
def emitOnFall (s : State) : WriteEngine :=
  if s.ctl.wr_en then
    writeStep s.cfg s.bs.p_bit_total.toNat s.bs.p_byte_count (byteAt s.bs.acc_p 0) s.we
  else s.we

/-! ## Meanings -/

/-- EV_RISE: the write line released, the rising time recorded, the timer armed (R66). -/
def execEvRise (s : State) : StepOutcome :=
  conclude ({ beginStep s with
    we := { s.we with wr_line := false }
    bs := armTimer s.io.now_us { s.bs with t_rise := s.io.now_us } }, 0x00#8)

/-- EV_FALL: the clock-high time measured, the write bit driven, the timer armed (R67). -/
def execEvFall (s : State) : StepOutcome :=
  conclude ({ beginStep s with
    we := emitOnFall s
    bs := armTimer s.io.now_us
      { s.bs with clk_high_time := elapsed s.io.now_us s.bs.t_rise } }, 0x00#8)

/-- EV_TIMER: the one-shot delay timer has fired (R68). -/
def execEvTimer (clk data : Bool) (s : State) : StepOutcome :=
  conclude (timerExpiry clk data (beginStep s), 0x00#8)

end Sys2Proof.Machine
end

