-- ==== Sys2Proof/Machine/Consumer.lean ====
section
/-! DEFINITION. The consumer side: POP (R97..R101), MREAD (R102), CRC (R103), CLR (R104), RD (R105),
WR (R106) and NOP (R107). -/

namespace Sys2Proof.Machine

/-! ## POP -/

/-- The frame of slot `buf_rd` copied to the panel output (R97, R98). -/
def copySlot (fb : FrameBuffer) (o : OutputState) : OutputState :=
  { o with panel_data := vget fb.buf_data fb.buf_rd.toNat zeroFrame
           panel_bytes := vget fb.buf_bytes fb.buf_rd.toNat 0
           panel_bits := vget fb.buf_bits fb.buf_rd.toNat 0 }

/-- The read index advanced; when it reaches the live `buf_len` the drain cycle ends (R97, R98). -/
def advanceRead (fb : FrameBuffer) : FrameBuffer :=
  if fb.buf_len ≤ fb.buf_rd + 1 then { fb with buf_len := 0, buf_rd := 0 }
  else { fb with buf_rd := fb.buf_rd + 1 }

/-- One frame drained: copied, the read index advanced (R97, R98). -/
def drainSlot (s : State) : State :=
  { s with out := copySlot s.fb s.out, fb := advanceRead s.fb }

/-- The CRC check on the panel output, recorded in `crc_ok`; ChecksumInvalid if it fails (R97, R103,
R125). -/
def checkPanel (s : State) : State :=
  let ok := crcValid s.ctl.crc_exempt s.out.panel_data s.out.panel_bytes.toNat
  raiseIf (!ok) .checksumInvalid { s with out := { s.out with crc_ok := ok } }

/-- The frame in the panel output accepted for dispatch (R97, R101). -/
def acceptPanel (s : State) : State × Byte :=
  ({ s with out := { s.out with last_disp_cmd := byteAt s.out.panel_data 0 } }, 0x01#8)

/-- The consumer-side filter, applied only when `proc_red` = 0, then acceptance (R97, R100). -/
def filterPanel (s : State) : State × Byte :=
  if s.ctl.proc_red then acceptPanel s
  else
    let r := consumerFilter s.out.panel_data s.rf
    let s := { s with rf := r.2 }
    if r.1 then (raise .redundantFrame s, 0x02#8) else acceptPanel s

/-- The startup-settling rule: before the first valid frame, an invalid one is discarded (R97, R99). -/
def settlePanel (s : State) : State × Byte :=
  if s.out.settled || s.out.crc_ok then
    filterPanel { s with out := { s.out with settled := true } }
  else (s, 0x03#8)

/-- POP once the presence is updated: a fresh disconnection returns early, then an empty buffer, else one
frame is drained, checked, settled and filtered (R97). `was` is `connected` before the update. -/
def popFrame (was : Bool) (s : State) : State × Byte :=
  if was && !s.bus.connected then (raise .busDisconnected s, 0x04#8)
  else if s.fb.buf_len = 0 then (s, 0x00#8)
  else settlePanel (checkPanel (drainSlot s))

/-- POP: the string drain step, the presence update, then the buffer (R97). -/
def popStep (s : State) : State × Byte :=
  let s := wstrDrainStep s
  popFrame s.bus.connected { s with bus := presenceUpdate s.cfg.timing.t_bus_ms s.io.now_ms s.bus }

/-! ## MREAD -/

/-- The classification of an accepted module frame: a response to the last dispatched query (R102). -/
def classifyModule (s : State) : Byte :=
  if tableBit s.ctl.query_map s.out.last_disp_cmd then 0x05#8 else 0x01#8

/-- The module redundancy filter, under `proc_red` = 0, then the classification (R102). -/
def filterModule (s : State) : State × Byte :=
  if s.ctl.proc_red then (s, classifyModule s)
  else
    let r := isRedundant s.rf.mcache s.out.mod_data 16
    let s := { s with rf := { s.rf with mcache := r.2 } }
    if r.1 then (raise .redundantFrame s, 0x02#8) else (s, classifyModule s)

/-- MREAD: the latched module frame taken, if one is pending and has a byte (R102). -/
def mreadStep (s : State) : State × Byte :=
  if !s.out.mod_capt then (s, 0x00#8)
  else
    let s := { s with out := { s.out with mod_capt := false } }
    if s.out.mod_bits.toNat < 8 then (s, 0x06#8) else filterModule s

/-! ## CRC and CLR -/

/-- CRC: the check on the panel output as the tables stand now (R103). -/
def crcStep (s : State) : State × Byte :=
  let s := checkPanel s
  (s, if s.out.crc_ok then 0x01#8 else 0x00#8)

/-- The sticky bits a mask selects cleared: bit 0 `ovf`, bit 2 `conn_chg`; other bits ignored (R104). -/
def clearSticky (m : Byte) (s : State) : State :=
  { s with fb := { s.fb with ovf := s.fb.ovf && !m.getLsbD 0 }
           bus := { s.bus with conn_chg := s.bus.conn_chg && !m.getLsbD 2 } }

/-! ## Meanings -/

/-- NOP (R107). -/
def execNop (s : State) : StepOutcome := conclude (beginStep s, 0x00#8)

/-- POP, `handlePanel()` (R97). -/
def execPop (s : State) : StepOutcome := conclude (popStep (beginStep s))

/-- MREAD, `handleModule()` (R102). -/
def execMread (s : State) : StepOutcome := conclude (mreadStep (beginStep s))

/-- CRC, `validCRC()` (R103). -/
def execCrc (s : State) : StepOutcome := conclude (crcStep (beginStep s))

/-- CLR (R104). -/
def execClr (mask : Byte) (s : State) : StepOutcome :=
  conclude (clearSticky mask (beginStep s), 0x00#8)

/-- RD: the register's value as the result, no side effect (R105). -/
def execRd (idx : Byte) (s : State) : StepOutcome := conclude (beginStep s, memRead s idx)

/-- WR (R106). -/
def execWr (idx val : Byte) (s : State) : StepOutcome :=
  conclude (memWrite (beginStep s) idx val, 0x00#8)

end Sys2Proof.Machine
end

