-- ==== Sys2Proof/Machine/System.lean ====
section
/-! DEFINITION. RESET (R137, R138). -/

namespace Sys2Proof.Machine

/-- The reset step: every element at its value of R137. The parameters, the environment and the step's
inputs are not elements of the block's state and stay (R137, log 10). -/
def resetStep (s : State) : State := { powerUp s.cfg with env := s.env, io := s.io }

/-- RESET: the reset step, result 0x00 (R138). -/
def execReset (s : State) : StepOutcome := conclude (resetStep (beginStep s), 0x00#8)

end Sys2Proof.Machine
end

