-- ==== Sys2Proof/Machine/Dispatch.lean ====
section
/-! DEFINITION. The meaning of every operation: one arm per constructor of Instr. -/

namespace Sys2Proof.Machine

-- All fifteen rows of spec/opcode_table.json have their meaning.
def exec (i : Instr) (s : State) : Host.Outcome State Fault Refusal :=
  match i with
  | .nop => Sys2Proof.Machine.execNop s
  | .pop => Sys2Proof.Machine.execPop s
  | .mread => Sys2Proof.Machine.execMread s
  | .crc => Sys2Proof.Machine.execCrc s
  | .wkey c => Sys2Proof.Machine.execWkey c s
  | .wstrClr => Sys2Proof.Machine.execWstrClr s
  | .wstrPush c => Sys2Proof.Machine.execWstrPush c s
  | .wstrGo => Sys2Proof.Machine.execWstrGo s
  | .clr mask => Sys2Proof.Machine.execClr mask s
  | .rd idx => Sys2Proof.Machine.execRd idx s
  | .wr idx val => Sys2Proof.Machine.execWr idx val s
  | .reset => Sys2Proof.Machine.execReset s
  | .evRise => Sys2Proof.Machine.execEvRise s
  | .evFall => Sys2Proof.Machine.execEvFall s
  | .evTimer clk data => Sys2Proof.Machine.execEvTimer clk data s

end Sys2Proof.Machine
end

