-- ==== Sys2Proof/Machine/Step.lean ====
section
/-! DEFINITION. One step of the machine: the next presented operation is decoded on its port and run (R6,
R46); an illegal word changes nothing (R57). -/

namespace Sys2Proof.Machine

/-- One presented operation, run on a machine it has been taken from: its counters latched, its word
decoded on its port, its meaning run; a word its port does not take is illegal (R6, R53, R57). -/
def runPresented (p : Presented) (s : State) : Host.Outcome State Fault Refusal :=
  match decodeAt p.port p.word with
  | .ok i => exec i (latchInputs p s)
  | .error _ => illegalWord (latchInputs p s)

/-- One atomic step (R6, R43). -/
def step (s : State) : Host.Outcome State Fault Refusal :=
  runPresented (takePresented s).1 (takePresented s).2

/-- `s` with the operation whose bits are `w` presented ahead of every other, on the port its format
belongs to, at the instant of the latest step, so that the very next step runs it (log 2, log 7). -/
def State.withFetchWord (s : State) (nbits w : Nat) : State :=
  let word : Word := BitVec.ofNat 32 (w % 2 ^ nbits)
  presentFirst (portOfWord word) word s

end Sys2Proof.Machine
end

