-- ==== Sys2Proof/Safety.lean ====
section
/-! DEFINITION. What a good state of the block is, in the terms the statements use: the ranges of R16..R31,
the relations the rules keep between counters, and what an absent write line rules out. -/

namespace Sys2Proof.Machine

/-! ## Frames -/

/-- Every byte of a frame above index n is 0x00 (R38). -/
def TailClear (f : Frame) (n : Nat) : Prop := ∀ i, n < i → byteAt f i = 0x00#8

/-- A frame with n complete bytes and k bits of the next: nothing above byte n, and byte n holds k bits,
right-aligned (R38, R69). -/
def PartialClear (f : Frame) (n k : Nat) : Prop := TailClear f n ∧ (byteAt f n).toNat < 2 ^ k

/-! ## Invariants by unit -/

/-- The panel counters agree: bits and bytes up to the command byte, then payload byte b begins at
bitTotal 8b - 7, then the storage limit of 16 bytes at 121 bits (R17, R69..R71). -/
def PanelCounters (b : BitSampler) : Prop :=
  let T := b.p_bit_total.toNat
  let B := b.p_byte_count.toNat
  let k := b.p_bit_count.toNat
  (T ≤ 8 ∧ 8 * B + k = T) ∨ (9 ≤ T ∧ T ≤ 121 ∧ 8 * B + k = T + 7) ∨ (121 < T ∧ B = 16 ∧ k = 0)

/-- The module counters agree: byte 0, then the jump over the stop slot, at most 120 bits (R18, R73..R75). -/
def ModuleCounters (b : BitSampler) : Prop :=
  let T := b.m_bit_total.toNat
  let B := b.m_byte_count.toNat
  let k := b.m_bit_count.toNat
  (T < 8 ∧ B = 0 ∧ k = T) ∨ (8 ≤ T ∧ T ≤ 120 ∧ 8 * B + k = T + 8)

/-- BitSampler: the counters agree. -/
def SamplerInv (b : BitSampler) : Prop := PanelCounters b ∧ ModuleCounters b

/-- FrameBuffer: at most ten slots, the read index at the start or below the length, byte counts at most
16 (R19, R98). -/
def BufferInv (fb : FrameBuffer) : Prop :=
  fb.buf_len.toNat ≤ 10 ∧ (fb.buf_rd = 0 ∨ fb.buf_rd < fb.buf_len) ∧
    ∀ k, (vget fb.buf_bytes k 0).toNat ≤ 16

/-- Output: byte counts at most 16 (R25, R26). -/
def OutputInv (o : OutputState) : Prop := o.panel_bytes.toNat ≤ 16 ∧ o.mod_bytes.toNat ≤ 16

/-- Bus presence: connected only after a completion (R21, R96). -/
def PresenceInv (b : Presence) : Prop := b.connected = true → b.gap_seen = true

/-- An alarm key is armed, being sent, or to be repeated (R29). -/
def alarmState (w : WrState) : Bool :=
  w == .armAlarm || w == .emitAlarm || w == .repeatArmed || w == .emitRepeat

/-- WriteEngine: the partition is one of 1..P; an alarm key in progress was armed; the skip flag only
stands in the hold (R30, R111, R117). -/
def WriterInv (p : Params) (w : WriteEngine) : Prop :=
  1 ≤ w.wr_part.toNat ∧ w.wr_part.toNat ≤ p.maxPartitions ∧
    (alarmState w.wr_state = true → w.alarm_seen = true) ∧
    (w.ast_skip = true → w.wr_state = .astHold)

/-- String queue: the cursor within the length, the length within the capacity (R31). -/
def QueueInv (q : StringQueue) : Prop := q.wstr_cur ≤ q.wstr_len ∧ q.wstr_len.toNat ≤ 32

/-- Without a write line the virtual keypad is disabled entirely: `wr_en` reads 0, the engine never leaves
IDLE, the line is never asserted (R28, R108). -/
def AbsentLineInert (s : State) : Prop :=
  s.cfg.write_line_present = false →
    s.ctl.wr_en = false ∧ s.we.wr_state = .idle ∧ s.we.wr_line = false

/-- The invariant of the block. -/
def State.Inv (s : State) : Prop :=
  SamplerInv s.bs ∧ BufferInv s.fb ∧ OutputInv s.out ∧ PresenceInv s.bus ∧
    WriterInv s.cfg s.we ∧ QueueInv s.sq ∧ AbsentLineInert s

/-- Every frame array holds 0x00 above its byte count, and the accumulators' current bytes hold just the
bits counted (R38, U16). -/
def State.FramesClear (s : State) : Prop :=
  PartialClear s.bs.acc_p s.bs.p_byte_count.toNat s.bs.p_bit_count.toNat ∧
    PartialClear s.bs.acc_m s.bs.m_byte_count.toNat s.bs.m_bit_count.toNat ∧
    (∀ k, TailClear (vget s.fb.buf_data k zeroFrame) (vget s.fb.buf_bytes k 0).toNat) ∧
    TailClear s.out.panel_data s.out.panel_bytes.toNat ∧
    TailClear s.out.mod_data s.out.mod_bytes.toNat

/-! ## Outcomes and step outputs -/

/-- The outcome is a next state: no fault, no refusal (R124). -/
def GoesOn (o : StepOutcome) : Prop := ∃ t, o = .next t

/-- The step outputs with a result and the conditions raised (R60, R125). -/
def StepIO.done (io : StepIO) (result : Byte) (raised : List Condition) : StepIO :=
  { io with result := result, raised := raised }

/-- The state at another instant: the step inputs of a later step (R11). -/
def State.atTime (s : State) (us ms : Word) : State :=
  { s with io := { s.io with now_us := us, now_ms := ms } }

/-! ## Bit streams (R39, R62) -/

/-- The bits of a byte in the order they cross the bus (R39). -/
def msbFirst (b : Byte) : List Bool := (List.range 8).map (fun i => b.getLsbD (7 - i))

/-- The panel levels of a frame: the command byte, a stop bit of any level, the payload (R62, R70). -/
def panelLevels (c : Byte) (stop : Bool) (payload : List Byte) : List Bool :=
  msbFirst c ++ stop :: payload.flatMap msbFirst

/-- The number that bits make, the first most significant: a byte filled so far, right-aligned (R69). -/
def bitsValue (bits : List Bool) : Nat := bits.foldl (fun v d => 2 * v + d.toNat) 0

/-! ## Frames arriving and leaving (R82, R98) -/

/-- A captured frame as the accumulator holds it at its completion. -/
structure CapturedFrame where
  data : Frame
  bytes : BitVec 5
  bits : Byte
  deriving DecidableEq, Repr

/-- The completion of a frame: the panel accumulator holds it and `Complete()` runs (R78). -/
def captureFrame (s : State) (f : CapturedFrame) : State :=
  complete
    { s with bs := { s.bs with acc_p := f.data, p_byte_count := f.bytes, p_bit_total := f.bits } }

/-- The interrupt path finds the accumulated frame redundant: it carries `ISR_CODE_A` and equals valid
cache A in all sixteen bytes, or else carries `ISR_CODE_B` and equals valid cache B (R81, R87). -/
def IsrRedundant (p : Params) (acc : Frame) (f : FilterState) : Prop :=
  (byteAt acc 0 = p.isr_code_a ∧ f.cacheA.valid = true ∧
      ∀ i < 16, byteAt f.cacheA.data i = byteAt acc i) ∨
    (byteAt acc 0 ≠ p.isr_code_a ∧ byteAt acc 0 = p.isr_code_b ∧ f.cacheB.valid = true ∧
      ∀ i < 16, byteAt f.cacheB.data i = byteAt acc i)

/-- n POP commands in a row, stopping where one does not go on. -/
def popTimes : Nat → State → State
  | 0, s => s
  | n + 1, s =>
    match exec .pop s with
    | .next t => popTimes n t
    | .fault _ => s
    | .refused _ => s

/-- The answers of `IsRedundant` to frames fed one after another, and the cache they leave (R87, R90). -/
def filterAnswers (len : Nat) : Cache → List Frame → List Bool × Cache
  | c, [] => ([], c)
  | c, f :: fs =>
    let r := isRedundant c f len
    let rest := filterAnswers len r.2 fs
    (r.1 :: rest.1, rest.2)

/-! ## Write emission through a frame (R113, R116) -/

/-- The write line released, as every rising edge does (R66). -/
def releaseLine (w : WriteEngine) : WriteEngine := { w with wr_line := false }

/-- The engine after the falling edges at bit positions 0..T of one frame with command byte `cmd` and
byte counter `B`, the line released before each (R66, R113). -/
def fallsThrough (p : Params) (cmd : Byte) (B : Nat → BitVec 5) (w : WriteEngine) : Nat → WriteEngine
  | 0 => writeStep p 0 (B 0) cmd (releaseLine w)
  | T + 1 => writeStep p (T + 1) (B (T + 1)) cmd (releaseLine (fallsThrough p cmd B w T))

/-- The state of the machine before and after a key of the string queue, or WKEY, in R111's own order:
the engine and the result code `Submit(c)` gives. Spelled out for the statements. -/
def SubmitSays (p : Params) (wr_en : Bool) (now_ms : Word) (c : Byte) (w : WriteEngine)
    (r : WriteEngine × Byte) : Prop :=
  let debounce := p.timing.t_alarm_ms.toNat
  let refused := fun w' : WriteEngine =>
    (keyOf p c = none → r = (w', 0x11#8)) ∧
    (∀ k, keyOf p c = some k → w'.wr_state ≠ .idle → r = (w', 0x12#8)) ∧
    (∀ k, keyOf p c = some k → w'.wr_state = .idle →
      w'.alarm_seen = true → (now_ms - w'.t_alarm).toNat < debounce → r = (w', 0x13#8)) ∧
    (∀ k, keyOf p c = some k → w'.wr_state = .idle →
      (w'.alarm_seen = true → debounce ≤ (now_ms - w'.t_alarm).toNat) → k.alarm = true →
      r = ({ w' with wr_key := k.code, wr_state := .armAlarm, wr_ast := false, t_alarm := now_ms,
                     alarm_seen := true }, 0x10#8)) ∧
    (∀ k, keyOf p c = some k → w'.wr_state = .idle →
      (w'.alarm_seen = true → debounce ≤ (now_ms - w'.t_alarm).toNat) → k.alarm = false →
      r = ({ w' with wr_key := k.code, wr_state := .armReg, wr_ast := (c == 0x2A#8),
                     wr_group := groupOf w'.wr_part,
                     wr_byte := (writeOffset p (pairOf w'.wr_part)).byteOffset,
                     wr_bit := (writeOffset p (pairOf w'.wr_part)).bitOffset }, 0x10#8))
  (wr_en = false → r = (w, 0x15#8)) ∧
  (wr_en = true → c = 0x2F#8 → r = ({ w with part_prefix := true }, 0x14#8)) ∧
  (wr_en = true → c ≠ 0x2F#8 → w.part_prefix = true → 0x30 ≤ c.toNat → c.toNat ≤ 0x39 →
    r = ({ w with part_prefix := false,
                  wr_part := if 1 ≤ c.toNat - 0x30 ∧ c.toNat - 0x30 ≤ p.maxPartitions
                             then BitVec.ofNat 4 (c.toNat - 0x30) else 1#4 }, 0x14#8)) ∧
  (wr_en = true → c ≠ 0x2F#8 → w.part_prefix = true → (c.toNat < 0x30 ∨ 0x39 < c.toNat) →
    refused { w with part_prefix := false }) ∧
  (wr_en = true → c ≠ 0x2F#8 → w.part_prefix = false → refused w)

end Sys2Proof.Machine
end

