-- ==== Sys2Proof/Certificates/Slice0/Obligations.lean ====
section
/-! DEFINITION. The statements about KEYBUS-CORE, for the provers. Each docstring names the rules it
formalises. A state is any `State`, reachable or not, unless a hypothesis says otherwise, and every
statement holds for every value of the parameters of R7 that `State.cfg` carries. -/

open Sys2Proof Sys2Proof.Machine

/-! ## Encoding (R52..R58) -/

/-- Decoding an encoded operation gives it back on its own port and the wrong-port rejection on the
other, with every operand at every value (R53..R56). -/
def Obligations.DecodeEncodeRoundTrip : Prop :=
  ∀ (i : Instr) (p : Port), decode (encode i) = .ok i ∧
    decodeAt p (encode i) = if i.port = p then .ok i else .error .wrongPort

/-- A word that decodes is the encoding of what it decodes to: no bit of a legal word is ignored (R55,
R57). -/
def Obligations.DecodedWordIsItsEncoding : Prop :=
  ∀ (w : Word) (i : Instr), decode w = .ok i → encode i = w

/-- R56: the decoder reads a row's instruction from a word exactly when `(w & mask) = match` for that
row of the table `opcodeRows`. -/
def Obligations.DecoderAgreesWithMatchAndMask : Prop :=
  ∀ (w : Word) (m : String), (∃ i, decode w = .ok i ∧ i.mnemonic = m) ↔
    ∃ r ∈ opcodeRows, r.mnemonic = m ∧ w &&& r.maskBits = r.matchBits

/-- R55: "no two rows overlap". -/
def Obligations.OpcodeRowsDoNotOverlap : Prop :=
  ∀ (w : Word), ∀ r ∈ opcodeRows, ∀ q ∈ opcodeRows,
    r.selects w = true → q.selects w = true → r = q

/-- R54: operands are the unsigned fields of R52, neither extended, scaled nor shifted. -/
def Obligations.OperandsAreTheWordsFields : Prop :=
  ∀ (w : Word) (i : Instr), decode w = .ok i →
    (∀ c, i = .wkey c → c.toNat = w.toNat / 2 ^ 8 % 256) ∧
    (∀ c, i = .wstrPush c → c.toNat = w.toNat / 2 ^ 8 % 256) ∧
    (∀ m, i = .clr m → m.toNat = w.toNat / 2 ^ 8 % 256) ∧
    (∀ r, i = .rd r → r.toNat = w.toNat / 2 ^ 16 % 256) ∧
    (∀ r v, i = .wr r v → r.toNat = w.toNat / 2 ^ 16 % 256 ∧ v.toNat = w.toNat / 2 ^ 8 % 256) ∧
    (∀ c d, i = .evTimer c d → c = w.getLsbD 16 ∧ d = w.getLsbD 8)

/-- Words written out from R55 decode to the operation each stands for. -/
def Obligations.TableWordsDecode : Prop :=
  decode 0x04003500#32 = .ok (.wkey 0x35#8) ∧ decode 0x06002F00#32 = .ok (.wstrPush 0x2F#8) ∧
    decode 0x08000500#32 = .ok (.clr 0x05#8) ∧ decode 0x09120000#32 = .ok (.rd 0x12#8) ∧
    decode 0x0A0B0300#32 = .ok (.wr 0x0B#8 0x03#8) ∧
    decode 0x82010000#32 = .ok (.evTimer true false) ∧
    decode 0x82000100#32 = .ok (.evTimer false true) ∧
    decode 0x0C000000#32 = .error .reservedOp ∧ decode 0x01000001#32 = .error .nonzeroRsv ∧
    decode 0x82020000#32 = .error .nonzeroField

/-! ## Steps (R6, R43, R57) -/

/-- A step runs the operation presented first, with its counters as the step inputs (R6, R11); with none
waiting it is the step of the environment's next draw. -/
def Obligations.StepRunsTheDecodedOperation : Prop :=
  (∀ (s : State) (p : Presented) (rest : List Presented) (i : Instr),
    s.env.pending = p :: rest → decodeAt p.port p.word = .ok i →
    step s = exec i
      { s with env := { s.env with pending := rest }
               io := { s.io with now_us := p.now_us, now_ms := p.now_ms } }) ∧
  (∀ s : State, s.env.pending = [] →
    step s = step { s with env :=
      { pending := [Config.environment s.env.drawn], drawn := s.env.drawn + 1 } })

/-- An illegal word, one that no row of its port's format selects, changes no state, gives 0xFF and raises
no condition (R53, R57; the step inputs and the waiting operations are the model's fields, log 2, log 4). -/
def Obligations.IllegalWordChangesNothing : Prop :=
  ∀ (s : State) (p : Presented) (rest : List Presented),
    s.env.pending = p :: rest →
    (∀ r ∈ opcodeRows, r.port = p.port → p.word &&& r.maskBits ≠ r.matchBits) →
    step s = .next
      { s with env := { s.env with pending := rest }
               io := { now_us := p.now_us, now_ms := p.now_ms, result := 0xFF#8, raised := [] } }

/-- R124: no step faults and none is refused. -/
def Obligations.EveryStepGoesOn : Prop := ∀ s : State, ∃ t, step s = .next t

/-! ## Invariants and whole-machine rules -/

/-- The invariant and the clear frame tails hold right after reset, whatever the parameters. -/
def Obligations.ResetMeetsTheInvariant : Prop :=
  (State.reset.Inv ∧ State.reset.FramesClear) ∧ ∀ p, (powerUp p).Inv ∧ (powerUp p).FramesClear

/-- Every step keeps the ranges of R16..R31, the counter relations of R69..R75, the drain-cycle bounds of
R98, the partition range of R32, and the inertness of an absent write line (R28, R108). -/
def Obligations.StepKeepsTheInvariant : Prop :=
  ∀ s t : State, s.Inv → step s = .next t → t.Inv

/-- Every step keeps every frame array zero above its byte count, a partial byte right-aligned (R38). -/
def Obligations.StepKeepsFramesClear : Prop :=
  ∀ s t : State, s.Inv → s.FramesClear → step s = .next t → t.FramesClear

/-- No step writes the parameters (R7). -/
def Obligations.NoStepWritesTheParameters : Prop :=
  ∀ s t : State, step s = .next t → t.cfg = s.cfg

/-- R35, one half: a bus event writes no panel output, no control bit or table, no consumer or module
cache, no request register of the WriteEngine, no string queue, no read index and no connected state;
it may set but not clear `ovf` and `mod_capt`. -/
def Obligations.BusEventsLeaveHostState : Prop :=
  ∀ (i : Instr) (s t : State), i.port = .bus → exec i s = .next t →
    t.ctl = s.ctl ∧ t.sq = s.sq ∧ t.fb.buf_rd = s.fb.buf_rd ∧
    t.bus.connected = s.bus.connected ∧ t.bus.conn_chg = s.bus.conn_chg ∧
    t.out.panel_data = s.out.panel_data ∧ t.out.panel_bytes = s.out.panel_bytes ∧
    t.out.panel_bits = s.out.panel_bits ∧ t.out.crc_ok = s.out.crc_ok ∧
    t.out.settled = s.out.settled ∧ t.out.last_disp_cmd = s.out.last_disp_cmd ∧
    t.rf.cc = s.rf.cc ∧ t.rf.cc_en = s.rf.cc_en ∧ t.rf.mcache = s.rf.mcache ∧
    t.we.wr_key = s.we.wr_key ∧ t.we.wr_part = s.we.wr_part ∧ t.we.wr_byte = s.we.wr_byte ∧
    t.we.wr_bit = s.we.wr_bit ∧ t.we.wr_group = s.we.wr_group ∧ t.we.wr_ast = s.we.wr_ast ∧
    t.we.part_prefix = s.we.part_prefix ∧ t.we.t_alarm = s.we.t_alarm ∧
    t.we.alarm_seen = s.we.alarm_seen ∧
    (s.fb.ovf = true → t.fb.ovf = true) ∧ (s.out.mod_capt = true → t.out.mod_capt = true)

/-- R35, the other half: a host command other than RESET writes no BitSampler state, no FrameBuffer slot,
no gap time, no interrupt-path cache, no module output and no write line; it may empty but not extend
the buffer, and clear but not set `ovf` and `mod_capt`. -/
def Obligations.HostCommandsLeaveBusState : Prop :=
  ∀ (i : Instr) (s t : State), i.port = .host → i ≠ .reset → exec i s = .next t →
    t.bs = s.bs ∧ t.fb.buf_data = s.fb.buf_data ∧ t.fb.buf_bytes = s.fb.buf_bytes ∧
    t.fb.buf_bits = s.fb.buf_bits ∧ t.fb.cur_cmd = s.fb.cur_cmd ∧
    (t.fb.buf_len = s.fb.buf_len ∨ t.fb.buf_len = 0) ∧
    t.bus.t_gap = s.bus.t_gap ∧ t.bus.gap_seen = s.bus.gap_seen ∧
    t.rf.cacheA = s.rf.cacheA ∧ t.rf.cacheB = s.rf.cacheB ∧
    t.out.mod_data = s.out.mod_data ∧ t.out.mod_bytes = s.out.mod_bytes ∧
    t.out.mod_bits = s.out.mod_bits ∧ t.we.wr_line = s.we.wr_line ∧
    t.we.ast_skip = s.we.ast_skip ∧
    (t.fb.ovf = true → s.fb.ovf = true) ∧ (t.out.mod_capt = true → s.out.mod_capt = true)

/-- R33, R99: the sticky flags `ovf` and `conn_chg` are cleared by CLR with their mask bit and by RESET
alone, and `settled` by RESET alone. -/
def Obligations.StickyFlagsStayUntilCleared : Prop :=
  ∀ (i : Instr) (s t : State), i ≠ .reset → exec i s = .next t →
    ((∀ m, i = .clr m → m.getLsbD 0 = false) → s.fb.ovf = true → t.fb.ovf = true) ∧
    ((∀ m, i = .clr m → m.getLsbD 2 = false) → s.bus.conn_chg = true → t.bus.conn_chg = true) ∧
    (s.out.settled = true → t.out.settled = true)

/-- Only a falling edge asserts the write line, only with the virtual keypad enabled, and only with a key
armed, in emission or to be repeated: `WriteStep` in IDLE or AST_HOLD is "no change", at every bit position
(R66, R67, R108, R113). -/
def Obligations.OnlyFallingEdgesAssertTheLine : Prop :=
  (∀ (i : Instr) (s t : State), exec i s = .next t → s.we.wr_line = false → t.we.wr_line = true →
    i = .evFall ∧ s.ctl.wr_en = true ∧ s.we.wr_state ≠ .idle ∧ s.we.wr_state ≠ .astHold) ∧
  ∀ (p : Params) (T : Nat) (B : BitVec 5) (cmd : Byte) (w : WriteEngine),
    (w.wr_state = .idle ∨ w.wr_state = .astHold) → writeStep p T B cmd w = w

/-! ## Reset and the register map -/

/-- R137: the values of every state element after the reset step. -/
def Obligations.ResetStepValues : Prop :=
  ∀ p : Params, let s := powerUp p
    (s.bs.t_rise = 0 ∧ s.bs.clk_high_time = 0 ∧ s.bs.tmr_t_arm = 0 ∧ s.bus.t_gap = 0 ∧
      s.we.t_alarm = 0) ∧
    (s.bs.tmr_armed = false ∧ s.bus.gap_seen = false ∧ s.bus.connected = false ∧
      s.bus.conn_chg = false ∧ s.fb.ovf = false) ∧
    (∀ i, byteAt s.bs.acc_p i = 0 ∧ byteAt s.bs.acc_m i = 0 ∧ byteAt s.out.panel_data i = 0 ∧
      byteAt s.out.mod_data i = 0 ∧ byteAt s.rf.cacheA.data i = 0 ∧ byteAt s.rf.cacheB.data i = 0 ∧
      byteAt s.rf.mcache.data i = 0 ∧
      (∀ k, byteAt (vget s.fb.buf_data k zeroFrame) i = 0) ∧
      (∀ k, byteAt (ccEntry s.rf k).cache.data i = 0) ∧ vget s.sq.wstr_q i 0 = 0) ∧
    (s.rf.cacheA.valid = false ∧ s.rf.cacheB.valid = false ∧ s.rf.mcache.valid = false ∧
      ∀ k, (ccEntry s.rf k).cache.valid = false) ∧
    (s.bs.p_bit_total = 0 ∧ s.bs.p_bit_count = 0 ∧ s.bs.p_byte_count = 0 ∧ s.bs.m_bit_total = 0 ∧
      s.bs.m_bit_count = 0 ∧ s.bs.m_byte_count = 0 ∧ s.bs.m_detect = false) ∧
    ((∀ k, vget s.fb.buf_bytes k 0 = 0 ∧ vget s.fb.buf_bits k 0 = 0) ∧ s.fb.buf_len = 0 ∧
      s.fb.buf_rd = 0) ∧
    (s.fb.cur_cmd = 0 ∧ s.out.last_disp_cmd = 0 ∧ s.out.panel_bytes = 0 ∧ s.out.panel_bits = 0 ∧
      s.out.mod_bytes = 0 ∧ s.out.mod_bits = 0 ∧ s.out.mod_capt = false ∧ s.out.crc_ok = false ∧
      s.out.settled = false) ∧
    (∀ c, tableBit s.ctl.crc_exempt c = false ∧ tableBit s.ctl.query_map c = false) ∧
    ((∀ k, (ccEntry s.rf k).code = 0 ∧ (ccEntry s.rf k).len = 0) ∧ s.rf.cc_en = 0) ∧
    (s.ctl.mod_en = false ∧ s.ctl.proc_red = true ∧ s.ctl.wr_en = p.write_line_present) ∧
    (s.we.wr_state = .idle ∧ s.we.wr_key = 0 ∧ s.we.wr_byte = 0 ∧ s.we.wr_bit = 0 ∧
      s.we.wr_group = false ∧ s.we.wr_part = 1 ∧ s.we.wr_ast = false ∧ s.we.ast_skip = false ∧
      s.we.part_prefix = false ∧ s.we.alarm_seen = false ∧ s.we.wr_line = false) ∧
    (s.sq.wstr_len = 0 ∧ s.sq.wstr_cur = 0 ∧ s.sq.wstr_active = false)

/-- R138: RESET performs the reset step and gives 0x00; power-up performs it too. -/
def Obligations.ResetPerformsTheResetStep : Prop :=
  (∀ s : State, ∃ t, exec .reset s = .next t ∧ t.io.result = 0x00#8 ∧
    let r := powerUp s.cfg
    t.bs = r.bs ∧ t.fb = r.fb ∧ t.bus = r.bus ∧ t.rf = r.rf ∧ t.out = r.out ∧ t.ctl = r.ctl ∧
      t.we = r.we ∧ t.sq = r.sq) ∧
  encode .reset = 0x0B000000#32 ∧ State.reset = powerUp Config.hardware

/-- R139: what RD reads at every index after the reset step. -/
def Obligations.RegisterValuesAfterReset : Prop :=
  ∀ (p : Params) (r : Byte), memRead (powerUp p) r =
    if r = 0x00#8 then (if p.write_line_present then 0x06#8 else 0x02#8)
    else if r = 0x01#8 then 0x10#8
    else if r = 0x0B#8 then 0x01#8
    else 0x00#8

/-- The contents of every register of R32's table, the flag registers bit by bit, with RD's completion:
the result is the register's value and nothing else changes (R32, R36, R105). -/
def Obligations.RdReadsTheRegisterMap : Prop :=
  ∀ (s : State),
    (∀ r, exec (.rd r) s = .next { s with io := s.io.done (memRead s r) [] } ∧
      encode (.rd r) &&& 0xFF00FFFF#32 = 0x09000000#32) ∧
    (∀ b < 8, (memRead s 0x00).getLsbD b =
      (if b = 0 then s.ctl.mod_en else if b = 1 then s.ctl.proc_red
        else if b = 2 then s.ctl.wr_en else false)) ∧
    (∀ b < 8, (memRead s 0x01).getLsbD b =
      (if b = 0 then s.fb.ovf else if b = 1 then s.bus.connected else if b = 2 then s.bus.conn_chg
        else if b = 3 then s.out.mod_capt else if b = 4 then decide (s.we.wr_state = .idle)
        else if b = 5 then s.out.settled else if b = 6 then s.sq.wstr_active else s.out.crc_ok)) ∧
    ((memRead s 0x02).toNat = s.fb.buf_len.toNat ∧ (memRead s 0x03).toNat = s.fb.buf_rd.toNat ∧
      (memRead s 0x04).toNat = s.out.panel_bytes.toNat ∧ memRead s 0x05 = s.out.panel_bits ∧
      (memRead s 0x06).toNat = s.out.mod_bytes.toNat ∧ memRead s 0x07 = s.out.mod_bits ∧
      memRead s 0x08 = s.fb.cur_cmd ∧ memRead s 0x09 = s.out.last_disp_cmd) ∧
    ((memRead s 0x0A).toNat % 8 = (wrStateCode s.we.wr_state).toNat ∧
      (memRead s 0x0A).getLsbD 3 = s.we.part_prefix ∧ (memRead s 0x0A).getLsbD 4 = s.we.wr_ast ∧
      (memRead s 0x0A).getLsbD 5 = s.we.ast_skip ∧ (memRead s 0x0A).getLsbD 6 = s.we.wr_group ∧
      (memRead s 0x0A).getLsbD 7 = false) ∧
    ((memRead s 0x0B).toNat = s.we.wr_part.toNat ∧ memRead s 0x0C = s.we.wr_key ∧
      (memRead s 0x0D).toNat = s.sq.wstr_len.toNat ∧ (memRead s 0x0E).toNat = s.sq.wstr_cur.toNat ∧
      memRead s 0x0F = s.bs.p_bit_total) ∧
    (∀ i < 16, memRead s (BitVec.ofNat 8 (0x10 + i)) = byteAt s.out.panel_data i ∧
      memRead s (BitVec.ofNat 8 (0x20 + i)) = byteAt s.out.mod_data i) ∧
    (∀ j < 32, ∀ b < 8,
      (memRead s (BitVec.ofNat 8 (0x30 + j))).getLsbD b =
        tableBit s.ctl.crc_exempt (BitVec.ofNat 8 (8 * j + b)) ∧
      (memRead s (BitVec.ofNat 8 (0x50 + j))).getLsbD b =
        tableBit s.ctl.query_map (BitVec.ofNat 8 (8 * j + b))) ∧
    (∀ k < 8, memRead s (BitVec.ofNat 8 (0x70 + k)) = (ccEntry s.rf k).code ∧
      memRead s (BitVec.ofNat 8 (0x78 + k)) = (ccEntry s.rf k).len) ∧
    memRead s 0x80 = s.rf.cc_en ∧
    (∀ b < 8, (memRead s 0x81).getLsbD b =
      (if b = 0 then s.we.wr_line else if b = 1 then s.bs.tmr_armed else false)) ∧
    ((memRead s 0x82).toNat = s.bs.p_byte_count.toNat ∧ memRead s 0x83 = s.bs.m_bit_total ∧
      (memRead s 0x84).toNat = s.bs.m_byte_count.toNat) ∧
    (∀ r : Byte, 0x85 ≤ r.toNat → memRead s r = 0x00#8)

/-- R106: what WR writes at each writable index, and that it has no effect at a read-only or reserved one
(R33, R36). The result is 0x00 always. -/
def Obligations.WrWritesTheRegisterMap : Prop :=
  ∀ (s : State) (v : Byte),
    exec (.wr 0x00 v) s = .next { s with
      io := s.io.done 0x00#8 []
      ctl := { s.ctl with mod_en := v.getLsbD 0, proc_red := v.getLsbD 1,
                          wr_en := v.getLsbD 2 && s.cfg.write_line_present } } ∧
    exec (.wr 0x0B v) s = .next { s with
      io := s.io.done 0x00#8 []
      we := { s.we with wr_part := if 1 ≤ v.toNat ∧ v.toNat ≤ s.cfg.maxPartitions
                                   then BitVec.ofNat 4 v.toNat else 1#4 } } ∧
    (∀ j < 32, exec (.wr (BitVec.ofNat 8 (0x30 + j)) v) s = .next { s with
      io := s.io.done 0x00#8 []
      ctl := { s.ctl with crc_exempt := vset s.ctl.crc_exempt j v } }) ∧
    (∀ j < 32, exec (.wr (BitVec.ofNat 8 (0x50 + j)) v) s = .next { s with
      io := s.io.done 0x00#8 []
      ctl := { s.ctl with query_map := vset s.ctl.query_map j v } }) ∧
    (∀ k < 8, exec (.wr (BitVec.ofNat 8 (0x70 + k)) v) s = .next { s with
      io := s.io.done 0x00#8 []
      rf := { s.rf with cc := vset s.rf.cc k { ccEntry s.rf k with
        code := v, cache := { (ccEntry s.rf k).cache with valid := false } } } }) ∧
    (∀ k < 8, exec (.wr (BitVec.ofNat 8 (0x78 + k)) v) s = .next { s with
      io := s.io.done 0x00#8 []
      rf := { s.rf with cc := vset s.rf.cc k { ccEntry s.rf k with
        len := v, cache := { (ccEntry s.rf k).cache with valid := false } } } }) ∧
    exec (.wr 0x80 v) s = .next { s with
      io := s.io.done 0x00#8 [], rf := { s.rf with cc_en := v } } ∧
    (∀ r : Byte, r ≠ 0x00 → r ≠ 0x0B → (r.toNat < 0x30 ∨ 0x80 < r.toNat) →
      exec (.wr r v) s = .next { s with io := s.io.done 0x00#8 [] }) ∧
    (∀ r : Byte, encode (.wr r v) &&& 0xFF0000FF#32 = 0x0A000000#32)

/-- A writable register reads back what was written, less the hardwired bits of CTRL and the range of
WR_PART; every other register of the same kind keeps its value (R32, R33). -/
def Obligations.WrittenRegistersReadBack : Prop :=
  ∀ (s : State) (r v : Byte),
    ((0x30 ≤ r.toNat ∧ r.toNat ≤ 0x80) → memRead (memWrite s r v) r = v) ∧
    (memRead (memWrite s 0x00 v) 0x00).toNat =
      v.toNat % 4 + (if v.getLsbD 2 && s.cfg.write_line_present then 4 else 0) ∧
    (memRead (memWrite s 0x0B v) 0x0B).toNat =
      (if 1 ≤ v.toNat ∧ v.toNat ≤ s.cfg.maxPartitions then v.toNat else 1) ∧
    (∀ q : Byte, q ≠ r → memRead (memWrite s r v) q = memRead s q)

/-- R104: CLR clears `ovf` for mask bit 0 and `conn_chg` for mask bit 2, and nothing else. -/
def Obligations.ClrClearsTheSelectedBits : Prop :=
  ∀ (s : State) (m : Byte), exec (.clr m) s = .next { s with
    io := s.io.done 0x00#8 []
    fb := { s.fb with ovf := if m.getLsbD 0 then false else s.fb.ovf }
    bus := { s.bus with conn_chg := if m.getLsbD 2 then false else s.bus.conn_chg } } ∧
    encode (.clr m) &&& 0xFFFF00FF#32 = 0x08000000#32

/-- R107: NOP changes no state, result 0x00, and its word is all zeros. -/
def Obligations.NopIsInert : Prop :=
  (∀ s : State, exec .nop s = .next { s with io := s.io.done 0x00#8 [] }) ∧ encode .nop = 0#32

/-! ## BitSampler (R63..R76) -/

/-- R66: EV_RISE. -/
def Obligations.RisingEdge : Prop :=
  ∀ s : State, exec .evRise s = .next { s with
    io := s.io.done 0x00#8 []
    we := { s.we with wr_line := false }
    bs := { s.bs with t_rise := s.io.now_us, tmr_armed := true, tmr_t_arm := s.io.now_us } } ∧
    encode .evRise = 0x80000000#32

/-- R67: EV_FALL. -/
def Obligations.FallingEdge : Prop :=
  ∀ s : State, exec .evFall s = .next { s with
    io := s.io.done 0x00#8 []
    bs := { s.bs with clk_high_time := s.io.now_us - s.bs.t_rise, tmr_armed := true,
                      tmr_t_arm := s.io.now_us }
    we := if s.ctl.wr_en = true
          then writeStep s.cfg s.bs.p_bit_total.toNat s.bs.p_byte_count (byteAt s.bs.acc_p 0) s.we
          else s.we } ∧
    encode .evFall = 0x81000000#32

/-- R68 and R65: EV_TIMER. Unarmed it does nothing; armed it disarms, and samples a panel bit with the
clock high, or, with the clock low, completes a frame after a clock-high time strictly above T_GAP_US and
then samples a module bit. -/
def Obligations.TimerExpiry : Prop :=
  ∀ (s : State) (d : Bool),
    let s0 := { s with io := s.io.done 0x00#8 [], bs := { s.bs with tmr_armed := false } }
    let gap := s.cfg.timing.t_gap_us.toNat < s.bs.clk_high_time.toNat
    (s.bs.tmr_armed = false → ∀ c, exec (.evTimer c d) s =
      .next { s with io := s.io.done 0x00#8 [] }) ∧
    (s.bs.tmr_armed = true → exec (.evTimer true d) s =
      .next { s0 with bs := panelBit d s0.bs }) ∧
    (s.bs.tmr_armed = true → gap → exec (.evTimer false d) s =
      .next { complete s0 with
        bs := moduleBit s.cfg s.ctl.mod_en (complete s0).fb.buf_len.toNat d (complete s0).bs }) ∧
    (s.bs.tmr_armed = true → ¬gap → exec (.evTimer false d) s =
      .next { s0 with bs := moduleBit s.cfg s.ctl.mod_en s.fb.buf_len.toNat d s0.bs }) ∧
    (∀ c, encode (.evTimer c d) &&& 0xFFFEFEFF#32 = 0x82000000#32)

/-- With this hardware's timing (R7: T_GAP_US = 1000), a falling edge and the sample after it end a frame
exactly when the clock was high for more than 1000 µs; "a gap of exactly 1ms or less does not" (R67, R68,
R77). -/
def Obligations.OnlyAGapOverOneMillisecondEndsAFrame : Prop :=
  ∀ (s t u : State) (us ms : Word) (d : Bool), s.cfg.timing = Config.hardware.timing →
    exec .evFall s = .next t → exec (.evTimer false d) (t.atTime us ms) = .next u →
    if 1000 < (s.io.now_us - s.bs.t_rise).toNat then
      u.bus.t_gap = ms ∧ u.bus.gap_seen = true ∧ u.bs.p_bit_total = 0 ∧ u.bs.p_byte_count = 0 ∧
        u.bs.acc_p = zeroFrame
    else
      u.bus = s.bus ∧ u.fb = s.fb ∧ u.rf = s.rf ∧ u.out = s.out ∧ u.bs.acc_p = s.bs.acc_p ∧
        u.bs.p_bit_total = s.bs.p_bit_total ∧ u.bs.p_byte_count = s.bs.p_byte_count

/-- R70 and R71: the stop bit's level is discarded, slot 1 receives 0x01 and the next bit goes to the next
slot; beyond sixteen bytes a panel bit is counted, saturating at 255, and not stored. -/
def Obligations.StopBitAndStorageLimit : Prop :=
  ∀ (d : Bool) (b : BitSampler),
    (b.p_bit_total = 8 → panelBit d b = { b with
      acc_p := setByte b.acc_p 1 0x01#8, p_byte_count := b.p_byte_count + 1, p_bit_count := 0,
      p_bit_total := 9 }) ∧
    (b.p_byte_count = 16 → b.p_bit_total ≠ 8 →
      panelBit d b = { b with p_bit_total := BitVec.ofNat 8 (min (b.p_bit_total.toNat + 1) 255) })

/-- A panel stream, most significant bit first, whole or ending inside a byte. Up to eight bits: they are in
slot 0, right-aligned, the byte counted when all eight are in. Beyond: the command byte in slot 0, 0x01 in
slot 1 whatever the stop bit's level, the payload bytes from slot 2 in arrival order, the bits of an
incomplete byte right-aligned and uncounted in the next slot, zero beyond, and the counters at the stream's
length (R38, R39, R69..R71, T1, FA4). -/
def Obligations.PanelStreamAssemblesTheFrame : Prop :=
  ∀ (b : BitSampler), b.acc_p = zeroFrame → b.p_bit_total = 0 → b.p_bit_count = 0 →
    b.p_byte_count = 0 →
    (∀ bits : List Bool, bits.length ≤ 8 →
      let e := bits.foldl (fun b d => panelBit d b) b
      (byteAt e.acc_p 0).toNat = bitsValue bits ∧ (∀ i, 0 < i → byteAt e.acc_p i = 0x00#8) ∧
        e.p_byte_count.toNat = bits.length / 8 ∧ e.p_bit_count.toNat = bits.length % 8 ∧
        e.p_bit_total.toNat = bits.length ∧ e.acc_m = b.acc_m) ∧
    ∀ (c : Byte) (stop : Bool) (payload : List Byte) (tail : List Bool), payload.length ≤ 14 →
      tail.length < 8 → (payload.length = 14 → tail = []) →
      let e := (panelLevels c stop payload ++ tail).foldl (fun b d => panelBit d b) b
      byteAt e.acc_p 0 = c ∧ byteAt e.acc_p 1 = 0x01#8 ∧
        (∀ i < payload.length, byteAt e.acc_p (i + 2) = payload.getD i 0x00#8) ∧
        (byteAt e.acc_p (payload.length + 2)).toNat = bitsValue tail ∧
        (∀ i, payload.length + 2 < i → byteAt e.acc_p i = 0x00#8) ∧
        e.p_byte_count.toNat = 2 + payload.length ∧ e.p_bit_count.toNat = tail.length ∧
        e.p_bit_total.toNat = 9 + 8 * payload.length + tail.length ∧ e.acc_m = b.acc_m

/-- A whole module frame with the gate open: stored bits are the inverse of the line levels under
MODULE_BIT_INVERT and the levels themselves without it, the eighth completes byte 0, slot 1 is forced to 0x01, later bytes follow from slot 2,
and any low level is detected (R39, R72..R75). -/
def Obligations.ModuleStreamAssemblesTheFrame : Prop :=
  ∀ (p : Params) (depth : Nat) (c : Byte) (payload : List Byte) (b : BitSampler),
    depth ≤ 1 → payload.length ≤ 14 →
    b.acc_m = zeroFrame → b.m_bit_total = 0 → b.m_bit_count = 0 → b.m_byte_count = 0 →
    let levels := (msbFirst c ++ payload.flatMap msbFirst).map
      (fun bit => if p.module_bit_invert = true then !bit else bit)
    let e := levels.foldl (fun b d => moduleBit p true depth d b) b
    byteAt e.acc_m 0 = c ∧ byteAt e.acc_m 1 = 0x01#8 ∧
      (∀ i, byteAt e.acc_m (i + 2) = payload.getD i 0x00#8) ∧
      e.m_byte_count.toNat = 2 + payload.length ∧ e.m_bit_count = 0 ∧
      e.m_bit_total.toNat = 8 + 8 * payload.length ∧
      e.m_detect = (b.m_detect || levels.any (fun d => !d)) ∧ e.acc_p = b.acc_p

/-- R72: with modules enabled, a buffer depth of at most 1 and storage left, a module bit is captured and
counted; otherwise it changes nothing, not even the count. -/
def Obligations.ModuleGateDecidesCapture : Prop :=
  ∀ (p : Params) (modEn : Bool) (depth : Nat) (d : Bool) (b : BitSampler),
    if modEn = true ∧ depth ≤ 1 ∧ b.m_byte_count.toNat < 16 then
      moduleBit p modEn depth d b = moduleShift p d b ∧
        (moduleBit p modEn depth d b).m_bit_total.toNat = min (b.m_bit_total.toNat + 1) 255
    else moduleBit p modEn depth d b = b

/-! ## FrameAssembler (R77..R86) -/

/-- R79: every completion writes the gap time and `gap_seen`, and not the connected state. -/
def Obligations.CompletionRecordsPresence : Prop :=
  ∀ s : State, (complete s).bus = { s.bus with t_gap := s.io.now_ms, gap_seen := true }

/-- R85: every completion zeroes both accumulators, all six counters and `m_detect`, and touches neither
the clock times nor the timer; of the WriteEngine only the hold release (R117) may change the state and
the skip flag. -/
def Obligations.CompletionClearsTheAccumulators : Prop :=
  ∀ s : State, (complete s).bs =
    { t_rise := s.bs.t_rise, clk_high_time := s.bs.clk_high_time, tmr_armed := s.bs.tmr_armed,
      tmr_t_arm := s.bs.tmr_t_arm, acc_p := zeroFrame, p_bit_total := 0, p_bit_count := 0,
      p_byte_count := 0, acc_m := zeroFrame, m_bit_total := 0, m_bit_count := 0,
      m_byte_count := 0, m_detect := false } ∧
    (complete s).we = { s.we with wr_state := (complete s).we.wr_state
                                  ast_skip := (complete s).we.ast_skip } ∧
    (s.we.wr_state ≠ .astHold → (complete s).we = s.we)

/-- Admission at a completion: a short frame touches neither caches nor buffer; a redundant one neither; any
other is appended at slot `buf_len`, or, when ten are held, dropped with `ovf` set (R80..R82). -/
def Obligations.CompletionAdmitsFrames : Prop :=
  ∀ s : State,
    (s.bs.p_bit_total.toNat < 8 → (complete s).fb = s.fb ∧ (complete s).rf = s.rf ∧
      (complete s).io.raised = s.io.raised ++ [.shortFrame]) ∧
    (8 ≤ s.bs.p_bit_total.toNat → IsrRedundant s.cfg s.bs.acc_p s.rf →
      (complete s).fb = s.fb ∧ (complete s).rf = s.rf ∧
        (complete s).io.raised = s.io.raised ++ [.redundantFrame]) ∧
    (8 ≤ s.bs.p_bit_total.toNat → ¬IsrRedundant s.cfg s.bs.acc_p s.rf → s.fb.buf_len = 10 →
      (complete s).fb = { s.fb with ovf := true } ∧
        (complete s).io.raised = s.io.raised ++ [.frameOverflow]) ∧
    (8 ≤ s.bs.p_bit_total.toNat → ¬IsrRedundant s.cfg s.bs.acc_p s.rf → s.fb.buf_len.toNat < 10 →
      (complete s).fb = { s.fb with
        buf_data := vset s.fb.buf_data s.fb.buf_len.toNat s.bs.acc_p
        buf_bytes := vset s.fb.buf_bytes s.fb.buf_len.toNat s.bs.p_byte_count
        buf_bits := vset s.fb.buf_bits s.fb.buf_len.toNat s.bs.p_bit_total
        cur_cmd := byteAt s.bs.acc_p 0
        buf_len := s.fb.buf_len + 1 } ∧ (complete s).io.raised = s.io.raised)

/-- The interrupt-path filter at a completion of 8 bits or more: a frame of `ISR_CODE_A`, or else of
`ISR_CODE_B`, leaves its bytes in its cache, valid, before the capacity test; any other frame leaves both
caches as they are (R81, R87, R148). -/
def Obligations.MonitoredFramesUpdateTheirCache : Prop :=
  ∀ s : State, 8 ≤ s.bs.p_bit_total.toNat →
    let f := s.bs.acc_p
    let t := complete s
    (byteAt f 0 = s.cfg.isr_code_a → t.rf = { s.rf with cacheA := ⟨true, f⟩ }) ∧
    (byteAt f 0 ≠ s.cfg.isr_code_a → byteAt f 0 = s.cfg.isr_code_b →
      t.rf = { s.rf with cacheB := ⟨true, f⟩ }) ∧
    (byteAt f 0 ≠ s.cfg.isr_code_a → byteAt f 0 ≠ s.cfg.isr_code_b → t.rf = s.rf)

/-- R148: a frame of `ISR_CODE_A` or `ISR_CODE_B` that is not redundant and is dropped for overflow is
still remembered: once the host has emptied the buffer, the same frame completing again is skipped. -/
def Obligations.OverflowedFrameIsStillRemembered : Prop :=
  ∀ (s u : State) (f : CapturedFrame), 8 ≤ f.bits.toNat →
    (byteAt f.data 0 = s.cfg.isr_code_a ∨ byteAt f.data 0 = s.cfg.isr_code_b) →
    s.fb.buf_len = 10 → u.cfg = s.cfg → u.rf = (captureFrame s f).rf →
    (¬IsrRedundant s.cfg f.data s.rf → (captureFrame s f).fb = { s.fb with ovf := true }) ∧
      (captureFrame u f).fb = u.fb ∧ (captureFrame u f).rf = u.rf

/-- T3 and R82: completing any number of unmonitored frames of 8 bits or more from an empty buffer keeps
the oldest ten, in arrival order, and sets `ovf` exactly when there were more. -/
def Obligations.OverflowKeepsTheOldestTen : Prop :=
  ∀ (s : State) (fs : List CapturedFrame), s.fb.buf_len = 0 →
    (∀ f ∈ fs, 8 ≤ f.bits.toNat ∧ byteAt f.data 0 ≠ s.cfg.isr_code_a ∧
      byteAt f.data 0 ≠ s.cfg.isr_code_b) →
    let t := fs.foldl captureFrame s
    t.fb.buf_len.toNat = min fs.length 10 ∧
      (∀ k f, k < 10 → fs[k]? = some f → vget t.fb.buf_data k zeroFrame = f.data ∧
        vget t.fb.buf_bytes k 0 = f.bytes ∧ vget t.fb.buf_bits k 0 = f.bits) ∧
      t.fb.ovf = (s.fb.ovf || decide (10 < fs.length)) ∧ t.fb.buf_rd = s.fb.buf_rd

/-- R84: the module latch. -/
def Obligations.CompletionLatchesTheModuleFrame : Prop :=
  ∀ s : State, (complete s).out =
    if s.ctl.mod_en = true ∧ s.bs.m_detect = true then
      { s.out with mod_data := s.bs.acc_m, mod_bytes := s.bs.m_byte_count,
                   mod_bits := s.bs.m_bit_total, mod_capt := true }
    else s.out

/-! ## RedundancyFilter and CRC (R87..R95) -/

/-- R87: `IsRedundant`. -/
def Obligations.RedundantMeansValidAndEqualPrefix : Prop :=
  ∀ (c : Cache) (cand : Frame) (len : Byte),
    ((isRedundant c cand len.toNat).1 = true ↔
      c.valid = true ∧ ∀ i < min len.toNat 16, byteAt c.data i = byteAt cand i) ∧
    (isRedundant c cand len.toNat).2 =
      if (isRedundant c cand len.toNat).1 = true then c else ⟨true, cand⟩

/-- R90: from an invalid cache, N + 1 identical frames are answered "not redundant" once and "redundant"
N times; a frame then differing in a compared byte is not redundant and becomes the cache. -/
def Obligations.RedundancyIsIdempotent : Prop :=
  ∀ (c : Cache) (f g : Frame) (len N : Nat), c.valid = false →
    filterAnswers len c (List.replicate (N + 1) f) = (false :: List.replicate N true, ⟨true, f⟩) ∧
      ((∃ i < min len 16, byteAt f i ≠ byteAt g i) →
        isRedundant ⟨true, f⟩ g len = (false, ⟨true, g⟩))

/-- R91: `CrcValid`: exempt, or at least three bytes whose sum, less the stop-bit slot and the last,
equals the last modulo 256. -/
def Obligations.CrcValidIsTheByteSum : Prop :=
  ∀ (exempt : Vector Byte 32) (f : Frame) (n : Nat), crcValid exempt f n = true ↔
    tableBit exempt (byteAt f 0) = true ∨
      (3 ≤ n ∧ (∑ i ∈ (Finset.range (n - 1)).erase 1, (byteAt f i).toNat) % 256 =
        (byteAt f (n - 1)).toNat)

/-- R94: the computed checksum byte makes a frame valid; changing a summed byte of a valid frame makes it
invalid, for a command that is not exempt. -/
def Obligations.ChecksumRoundTrip : Prop :=
  ∀ (exempt : Vector Byte 32) (f : Frame) (n : Nat), 3 ≤ n → n ≤ 16 →
    crcValid exempt (setByte f (n - 1) (checksum f (n - 1))) n = true ∧
      ∀ (i : Nat) (v : Byte), i < n - 1 → i ≠ 1 → v ≠ byteAt f i →
        tableBit exempt (byteAt f 0) = false → tableBit exempt (byteAt (setByte f i v) 0) = false →
        crcValid exempt f n = true → crcValid exempt (setByte f i v) n = false

/-- R93: "The value of `data[1]` never matters." -/
def Obligations.StopSlotNeverMattersToTheChecksum : Prop :=
  ∀ (exempt : Vector Byte 32) (f : Frame) (n : Nat) (v : Byte),
    crcValid exempt (setByte f 1 v) n = crcValid exempt f n

/-! ## Consumer (R96..R107) -/

/-- R96: `PresenceUpdate`: connected means a completion at most T_BUS_MS ago, 3000 ms on this hardware,
that instant included; a change sets the changed-flag. -/
def Obligations.PresenceFollowsTheGapTime : Prop :=
  (∀ (limit now : Word) (b : Presence),
    let c := b.gap_seen && decide ((now - b.t_gap).toNat ≤ limit.toNat)
    presenceUpdate limit now b =
      { b with connected := c, conn_chg := b.conn_chg || decide (c ≠ b.connected) }) ∧
  Config.hardware.timing.t_bus_ms.toNat = 3000

/-- R97 with R98, R99 and R100: POP, in the order of its tests, every effect of each of its ends. The
string drain step it begins with is R122's, stated apart. That a failed check is listed among the raised
conditions rests on R125 and R127 and is the model's reading of them (log 5). -/
def Obligations.PopFollowsItsRule : Prop :=
  ∀ s : State,
    let d := wstrDrainStep { s with io := { s.io with raised := [] } }
    let b := presenceUpdate s.cfg.timing.t_bus_ms s.io.now_ms d.bus
    let rd := d.fb.buf_rd.toNat
    let f := vget d.fb.buf_data rd zeroFrame
    let n := vget d.fb.buf_bytes rd 0
    let ok := crcValid d.ctl.crc_exempt f n.toNat
    let fb := if d.fb.buf_len ≤ d.fb.buf_rd + 1 then { d.fb with buf_len := 0, buf_rd := 0 }
      else { d.fb with buf_rd := d.fb.buf_rd + 1 }
    let out := { d.out with
      panel_data := f, panel_bytes := n, panel_bits := vget d.fb.buf_bits rd 0, crc_ok := ok }
    let accepted := { out with settled := true, last_disp_cmd := byteAt f 0 }
    let crcBad := d.io.raised ++ (if ok then [] else [.checksumInvalid])
    (d.bus.connected = true → b.connected = false → exec .pop s =
      .next { d with bus := b, io := d.io.done 0x04#8 (d.io.raised ++ [.busDisconnected]) }) ∧
    (¬(d.bus.connected = true ∧ b.connected = false) → d.fb.buf_len = 0 → exec .pop s =
      .next { d with bus := b, io := d.io.done 0x00#8 d.io.raised }) ∧
    (¬(d.bus.connected = true ∧ b.connected = false) → d.fb.buf_len ≠ 0 →
      d.out.settled = false → ok = false → exec .pop s =
      .next { d with bus := b, fb := fb, out := out, io := d.io.done 0x03#8 crcBad }) ∧
    (¬(d.bus.connected = true ∧ b.connected = false) → d.fb.buf_len ≠ 0 →
      (d.out.settled = true ∨ ok = true) →
      (d.ctl.proc_red = true ∨ ccMatch d.rf (byteAt f 0) = none) → exec .pop s =
      .next { d with bus := b, fb := fb, out := accepted, io := d.io.done 0x01#8 crcBad }) ∧
    (∀ k, ¬(d.bus.connected = true ∧ b.connected = false) → d.fb.buf_len ≠ 0 →
      (d.out.settled = true ∨ ok = true) →
      d.ctl.proc_red = false → ccMatch d.rf (byteAt f 0) = some k →
      let e := ccEntry d.rf k
      let r := isRedundant e.cache f e.len.toNat
      let rf := { d.rf with cc := vset d.rf.cc k { e with cache := r.2 } }
      exec .pop s = if r.1 = true
        then .next { d with bus := b, fb := fb, out := { out with settled := true }, rf := rf,
                            io := d.io.done 0x02#8 (crcBad ++ [.redundantFrame]) }
        else .next { d with bus := b, fb := fb, out := accepted, rf := rf,
                            io := d.io.done 0x01#8 crcBad }) ∧
    encode .pop = 0x01000000#32

/-- R100: the entry the consumer filter uses is the lowest-numbered enabled one whose code equals the
command byte. -/
def Obligations.ConsumerFilterUsesTheLowestMatch : Prop :=
  ∀ (f : FilterState) (cmd : Byte) (k : Nat), ccMatch f cmd = some k ↔
    k < 8 ∧ f.cc_en.getLsbD k = true ∧ (ccEntry f k).code = cmd ∧
      ∀ j < k, ¬(f.cc_en.getLsbD j = true ∧ (ccEntry f j).code = cmd)

/-- R47 and R98: n buffered frames are delivered by n POPs in arrival order, each with result 0x01, and
the n-th ends the drain cycle (settled, redundant frames shown, the bus connected, no string active). -/
def Obligations.PopDeliversFramesInArrivalOrder : Prop :=
  ∀ (s : State) (n : Nat), s.fb.buf_len.toNat = n → n ≤ 10 → s.fb.buf_rd = 0 →
    s.sq.wstr_active = false → s.out.settled = true → s.ctl.proc_red = true →
    s.bus.connected = true → s.bus.gap_seen = true →
    (s.io.now_ms - s.bus.t_gap).toNat ≤ s.cfg.timing.t_bus_ms.toNat →
    (∀ k < n, let t := popTimes (k + 1) s
      t.io.result = 0x01#8 ∧ t.out.panel_data = vget s.fb.buf_data k zeroFrame ∧
      t.out.panel_bytes = vget s.fb.buf_bytes k 0 ∧ t.out.panel_bits = vget s.fb.buf_bits k 0 ∧
      t.out.last_disp_cmd = byteAt (vget s.fb.buf_data k zeroFrame) 0) ∧
    (popTimes n s).fb.buf_len = 0 ∧ (popTimes n s).fb.buf_rd = 0

/-- R102: MREAD. -/
def Obligations.MreadFollowsItsRule : Prop :=
  ∀ s : State,
    let o := { s.out with mod_capt := false }
    let kind : Byte := if tableBit s.ctl.query_map s.out.last_disp_cmd = true then 0x05 else 0x01
    let r := isRedundant s.rf.mcache s.out.mod_data 16
    encode .mread = 0x02000000#32 ∧ exec .mread s =
      if s.out.mod_capt = false then .next { s with io := s.io.done 0x00#8 [] }
      else if s.out.mod_bits.toNat < 8 then .next { s with out := o, io := s.io.done 0x06#8 [] }
      else if s.ctl.proc_red = true then .next { s with out := o, io := s.io.done kind [] }
      else if r.1 = true then
        .next { s with out := o, rf := { s.rf with mcache := r.2 },
                       io := s.io.done 0x02#8 [.redundantFrame] }
      else .next { s with out := o, rf := { s.rf with mcache := r.2 }, io := s.io.done kind [] }

/-- R103: CRC checks the panel output and records the answer in `crc_ok` and the result. -/
def Obligations.CrcChecksThePanelOutput : Prop :=
  ∀ s : State, let ok := crcValid s.ctl.crc_exempt s.out.panel_data s.out.panel_bytes.toNat
    exec .crc s = .next { s with
      out := { s.out with crc_ok := ok }
      io := s.io.done (if ok = true then 0x01#8 else 0x00#8)
        (if ok = true then [] else [.checksumInvalid]) } ∧
      encode .crc = 0x03000000#32

/-! ## WriteEngine (R108..R123) -/

/-- R111 and R112: WKEY answers with `Submit(c)`, every case of which `SubmitSays` spells out, and writes
the engine alone; for an unknown key "nothing is armed and no condition is raised" (C9). -/
def Obligations.WkeySubmitsTheKey : Prop :=
  ∀ (c : Byte) (s : State), ∃ r : WriteEngine × Byte,
    SubmitSays s.cfg s.ctl.wr_en s.io.now_ms c s.we r ∧
    exec (.wkey c) s = .next { s with we := r.1, io := s.io.done r.2 [] } ∧
    encode (.wkey c) &&& 0xFFFF00FF#32 = 0x04000000#32

/-- R110: the pair and the group of each partition, and the target they select. -/
def Obligations.PartitionTargets : Prop :=
  ∀ (p : Params) (part : BitVec 4), 1 ≤ part.toNat → part.toNat ≤ 8 →
    pairOf part = (part.toNat - 1) % 4 ∧ (groupOf part).toNat = (part.toNat - 1) / 4 ∧
      some (writeOffset p (pairOf part)) = p.write_offsets[(part.toNat - 1) % 4]? ∧
      some (statusCmd p (groupOf part)) = p.status_cmd[(part.toNat - 1) / 4]?

/-- R116 and R115: in a frame of its group's command whose byte counter is the target byte throughout the
window, a regular key, armed or left in EMIT_REG by a frame that ended early (D32), is emitted from its
first bit at exactly the eight positions from `wr_bit`, each asserting the complement of its key bit, most
significant first; at every other falling edge of the frame the line is released. Until the eighth position
the engine is in EMIT_REG, which is where a shorter frame leaves it; then it ends IDLE, or in the hold after
the acknowledgement-wait key. The second part says the same of one falling edge at any position, however it
was reached: a key armed in the middle of a frame, or a position left over from the frame before (R113,
R146). Positions are summed without a wrap (log 8, which concerns a `wr_bit` above 248 alone). -/
def Obligations.RegularKeyBitMapping : Prop :=
  (∀ (p : Params) (B : Nat → BitVec 5) (w : WriteEngine),
    (w.wr_state = .armReg ∨ w.wr_state = .emitReg) → 8 ≤ w.wr_bit.toNat →
    (∀ T, w.wr_bit.toNat ≤ T → T ≤ w.wr_bit.toNat + 7 → B T = w.wr_byte) →
    ∀ T, let e := fallsThrough p (statusCmd p w.wr_group) B w T
      (T < w.wr_bit.toNat → e = releaseLine w) ∧
      (∀ j < 8, T = w.wr_bit.toNat + j → e.wr_line = !w.wr_key.getLsbD (7 - j)) ∧
      (w.wr_bit.toNat ≤ T → T < w.wr_bit.toNat + 7 → e.wr_state = .emitReg) ∧
      (w.wr_bit.toNat + 7 ≤ T →
        e.wr_state = (if w.wr_ast = true then .astHold else .idle) ∧
        e.ast_skip = (if w.wr_ast = true then true else w.ast_skip)) ∧
      (w.wr_bit.toNat + 7 < T → e.wr_line = false) ∧
      e = { w with wr_state := e.wr_state, wr_line := e.wr_line, ast_skip := e.ast_skip }) ∧
  ∀ (p : Params) (T : Nat) (B : BitVec 5) (cmd : Byte) (w : WriteEngine),
    8 ≤ T → cmd = statusCmd p w.wr_group → B = w.wr_byte →
    ((w.wr_state = .armReg ∨ w.wr_state = .emitReg) → T = w.wr_bit.toNat →
      writeStep p T B cmd w = { w with wr_line := !w.wr_key.getLsbD 7, wr_state := .emitReg }) ∧
    (w.wr_state = .emitReg → w.wr_bit.toNat < T → T < w.wr_bit.toNat + 7 →
      writeStep p T B cmd w = { w with wr_line := !w.wr_key.getLsbD (7 - (T - w.wr_bit.toNat)) }) ∧
    (w.wr_state = .emitReg → T = w.wr_bit.toNat + 7 →
      writeStep p T B cmd w = if w.wr_ast = true
        then { w with wr_line := !w.wr_key.getLsbD 0, wr_state := .astHold, ast_skip := true }
        else { w with wr_line := !w.wr_key.getLsbD 0, wr_state := .idle })

/-- R115: in a frame of another command, or while the byte counter is not the target byte, a regular key
asserts nothing and waits unchanged, however long (R118); so does one armed for a bit position below 8,
before which no command byte is complete (D43). The second part says of one falling edge at any position,
however it was reached, when it changes nothing: the gate closed, a key armed away from `wr_bit` (also past
it, the gate open), an emission outside its eight positions (R113, R146). -/
def Obligations.RegularKeyWaitsForItsFrame : Prop :=
  (∀ (p : Params) (cmd : Byte) (B : Nat → BitVec 5) (w : WriteEngine),
    (w.wr_state = .armReg ∨ w.wr_state = .emitReg) →
    (cmd ≠ statusCmd p w.wr_group ∨ (∀ T, B T ≠ w.wr_byte) ∨
      (w.wr_state = .armReg ∧ w.wr_bit.toNat < 8)) →
    ∀ T, fallsThrough p cmd B w T = releaseLine w) ∧
  ∀ (p : Params) (T : Nat) (B : BitVec 5) (cmd : Byte) (w : WriteEngine),
    ((w.wr_state = .armReg ∨ w.wr_state = .emitReg) →
      (T < 8 ∨ cmd ≠ statusCmd p w.wr_group ∨ B ≠ w.wr_byte) → writeStep p T B cmd w = w) ∧
    (w.wr_state = .armReg → T ≠ w.wr_bit.toNat → writeStep p T B cmd w = w) ∧
    (w.wr_state = .emitReg → (T < w.wr_bit.toNat ∨ w.wr_bit.toNat + 7 < T) →
      writeStep p T B cmd w = w)

/-- R114: an alarm key is emitted at bit positions 1..8 of any frame, the complement of its bits most
significant first, and the line released elsewhere; after the eighth it is to be repeated, and the repeat,
in a later frame at the same positions, ends IDLE. An emission, the first or the repeat, left under way by
a frame that ended early restarts at position 1 of the next frame (D32): both may start from their EMIT
state, in which every frame of fewer positions leaves them. The second part says the same of one falling
edge at any position, however it was reached: a key armed in the middle of a frame waits for position 1, and
a position left over from the frame before goes on with the emission or changes nothing (R113, R146). -/
def Obligations.AlarmKeyIsSentTwice : Prop :=
  (∀ (p : Params) (cmd cmd' : Byte) (B B' : Nat → BitVec 5) (w : WriteEngine),
    (w.wr_state = .armAlarm ∨ w.wr_state = .emitAlarm) →
    let first := fallsThrough p cmd B w
    (∀ T, 1 ≤ T → T ≤ 8 → (first T).wr_line = !w.wr_key.getLsbD (8 - T)) ∧
    (∀ T, T = 0 ∨ 8 < T → (first T).wr_line = false) ∧
    (∀ T, 1 ≤ T → T < 8 → (first T).wr_state = .emitAlarm) ∧
    (∀ T, 8 ≤ T → (first T).wr_state = .repeatArmed) ∧
    (∀ T, first T = { w with wr_state := (first T).wr_state, wr_line := (first T).wr_line }) ∧
    ∀ v : WriteEngine, v.wr_key = w.wr_key → (v.wr_state = .repeatArmed ∨ v.wr_state = .emitRepeat) →
      let second := fallsThrough p cmd' B' v
      (∀ T, 1 ≤ T → T ≤ 8 → (second T).wr_line = !w.wr_key.getLsbD (8 - T)) ∧
      (∀ T, T = 0 ∨ 8 < T → (second T).wr_line = false) ∧
      (∀ T, 1 ≤ T → T < 8 → (second T).wr_state = .emitRepeat) ∧
      (∀ T, 8 ≤ T → (second T).wr_state = .idle) ∧
      (∀ T, second T = { v with wr_state := (second T).wr_state, wr_line := (second T).wr_line })) ∧
  ∀ (p : Params) (T : Nat) (B : BitVec 5) (cmd : Byte) (w : WriteEngine),
    ((w.wr_state = .armAlarm ∨ w.wr_state = .emitAlarm) → T = 1 →
      writeStep p T B cmd w = { w with wr_line := !w.wr_key.getLsbD 7, wr_state := .emitAlarm }) ∧
    ((w.wr_state = .repeatArmed ∨ w.wr_state = .emitRepeat) → T = 1 →
      writeStep p T B cmd w = { w with wr_line := !w.wr_key.getLsbD 7, wr_state := .emitRepeat }) ∧
    ((w.wr_state = .armAlarm ∨ w.wr_state = .repeatArmed) → T ≠ 1 → writeStep p T B cmd w = w) ∧
    ((w.wr_state = .emitAlarm ∨ w.wr_state = .emitRepeat) →
      (2 ≤ T → T < 8 → writeStep p T B cmd w = { w with wr_line := !w.wr_key.getLsbD (8 - T) }) ∧
      (T = 8 → writeStep p T B cmd w = { w with
        wr_line := !w.wr_key.getLsbD 0
        wr_state := if w.wr_state = .emitAlarm then .repeatArmed else .idle }) ∧
      ((T = 0 ∨ 8 < T) → writeStep p T B cmd w = w))

/-- R117: what a completion does to the hold after the acknowledgement-wait key, case by case, while the
virtual keypad is enabled. With `wr_en` = 0 the hold is frozen (R108, R149, D44): that this exception is
made in R117's "called by every Complete()" is the model's reading (log 16). -/
def Obligations.HoldIsReleasedByALaterStatusFrame : Prop :=
  ∀ s : State,
    let w := s.we
    let status := 8 ≤ s.bs.p_bit_total.toNat ∧ byteAt s.bs.acc_p 0 = statusCmd s.cfg w.wr_group
    (w.wr_state ≠ .astHold → (complete s).we = w) ∧
    (s.ctl.wr_en = false → (complete s).we = w) ∧
    (s.ctl.wr_en = true → w.wr_state = .astHold → w.ast_skip = true →
      (complete s).we = { w with ast_skip := false }) ∧
    (s.ctl.wr_en = true → w.wr_state = .astHold → w.ast_skip = false → status →
      (complete s).we = { w with wr_state := .idle }) ∧
    (s.ctl.wr_en = true → w.wr_state = .astHold → w.ast_skip = false → ¬status →
      (complete s).we = w)

/-- R119, R120, R121: WSTR_CLR empties the queue, its bytes left as they are; WSTR_PUSH appends one
character, unless the write line is off or the queue is full; WSTR_GO starts draining. -/
def Obligations.StringQueueCommands : Prop :=
  ∀ (c : Byte) (s : State),
    (exec .wstrClr s = .next { s with
      io := s.io.done 0x00#8 []
      sq := { s.sq with wstr_len := 0, wstr_cur := 0, wstr_active := false } } ∧
      encode .wstrClr = 0x05000000#32) ∧
    (exec (.wstrPush c) s =
      (if s.ctl.wr_en = false then .next { s with io := s.io.done 0x15#8 [] }
       else if s.sq.wstr_len = 32 then .next { s with io := s.io.done 0x16#8 [] }
       else .next { s with
        io := s.io.done 0x10#8 []
        sq := { s.sq with wstr_q := vset s.sq.wstr_q s.sq.wstr_len.toNat c,
                          wstr_len := s.sq.wstr_len + 1 } }) ∧
      encode (.wstrPush c) &&& 0xFFFF00FF#32 = 0x06000000#32) ∧
    (exec .wstrGo s =
      .next { s with io := s.io.done 0x00#8 [], sq := { s.sq with wstr_active := true } } ∧
      encode .wstrGo = 0x07000000#32)

/-- R122: the string drain step. -/
def Obligations.StringDrainStep : Prop :=
  ∀ s : State,
    let c := vget s.sq.wstr_q s.sq.wstr_cur.toNat 0
    let empty := { s.sq with wstr_len := 0, wstr_cur := 0, wstr_active := false }
    let stop := s.sq.wstr_len ≤ s.sq.wstr_cur ∨ c = 0x00#8
    ((s.sq.wstr_active = false ∨ s.we.wr_state ≠ .idle) → wstrDrainStep s = s) ∧
    (s.sq.wstr_active = true → s.we.wr_state = .idle → stop →
      wstrDrainStep s = { s with sq := empty }) ∧
    (s.sq.wstr_active = true → s.we.wr_state = .idle → ¬stop →
      ∃ r : WriteEngine × Byte, SubmitSays s.cfg s.ctl.wr_en s.io.now_ms c s.we r ∧
        wstrDrainStep s = { s with
          we := r.1
          sq := if r.2 = 0x10#8 ∨ r.2 = 0x11#8 ∨ r.2 = 0x14#8
                then { s.sq with wstr_cur := s.sq.wstr_cur + 1 }
                else if r.2 = 0x15#8 then empty else s.sq })

/-- R108, R149 and D44: with `wr_en` = 0 the engine is frozen. No operation changes it, but that EV_RISE
releases the line (R66), WR to WR_PART writes the partition (R106) and RESET resets; so an asserted line
stays asserted until the next rising edge. WKEY and WSTR_PUSH are answered 0x15 with nothing queued, and a
string under way is abandoned by the next POP that finds the engine idle (R122). That a completion leaves the
hold frozen too is the model's reading of R108 against R117 (log 16). -/
def Obligations.DisabledKeypadIsFrozen : Prop :=
  ∀ (i : Instr) (s t : State), s.ctl.wr_en = false → exec i s = .next t →
    (i ≠ .reset → i ≠ .evRise → (∀ v, i ≠ .wr 0x0B v) → t.we = s.we) ∧
    (i = .evRise → t.we = releaseLine s.we) ∧
    (∀ v, i = .wr 0x0B v → t.we = { s.we with wr_part := t.we.wr_part }) ∧
    (∀ c, i = .wkey c → t.io.result = 0x15#8) ∧
    (∀ c, i = .wstrPush c → t.sq = s.sq ∧ t.io.result = 0x15#8) ∧
    (i = .pop → s.sq.wstr_active = true → s.we.wr_state = .idle →
      t.sq = { s.sq with wstr_len := 0, wstr_cur := 0, wstr_active := false })
end

