-- ==== Sys2Proof/Laws/State.lean ====
section
/-! SUPPORT. What each update of the state leaves in each unit: one lemma per field per update, true by
rfl, so that no later proof unfolds a record update. -/

namespace Sys2Proof.Machine

/-! ## raise -/

@[simp] theorem raise_cfg (c : Condition) (s : State) : (raise c s).cfg = s.cfg := rfl
@[simp] theorem raise_env (c : Condition) (s : State) : (raise c s).env = s.env := rfl
@[simp] theorem raise_io (c : Condition) (s : State) : (raise c s).io = { s.io with raised := s.io.raised ++ [c] } := rfl
@[simp] theorem raise_bs (c : Condition) (s : State) : (raise c s).bs = s.bs := rfl
@[simp] theorem raise_fb (c : Condition) (s : State) : (raise c s).fb = s.fb := rfl
@[simp] theorem raise_bus (c : Condition) (s : State) : (raise c s).bus = s.bus := rfl
@[simp] theorem raise_rf (c : Condition) (s : State) : (raise c s).rf = s.rf := rfl
@[simp] theorem raise_out (c : Condition) (s : State) : (raise c s).out = s.out := rfl
@[simp] theorem raise_ctl (c : Condition) (s : State) : (raise c s).ctl = s.ctl := rfl
@[simp] theorem raise_we (c : Condition) (s : State) : (raise c s).we = s.we := rfl
@[simp] theorem raise_sq (c : Condition) (s : State) : (raise c s).sq = s.sq := rfl

/-! ## beginStep -/

@[simp] theorem beginStep_cfg (s : State) : (beginStep s).cfg = s.cfg := rfl
@[simp] theorem beginStep_env (s : State) : (beginStep s).env = s.env := rfl
@[simp] theorem beginStep_io (s : State) : (beginStep s).io = { s.io with raised := [] } := rfl
@[simp] theorem beginStep_bs (s : State) : (beginStep s).bs = s.bs := rfl
@[simp] theorem beginStep_fb (s : State) : (beginStep s).fb = s.fb := rfl
@[simp] theorem beginStep_bus (s : State) : (beginStep s).bus = s.bus := rfl
@[simp] theorem beginStep_rf (s : State) : (beginStep s).rf = s.rf := rfl
@[simp] theorem beginStep_out (s : State) : (beginStep s).out = s.out := rfl
@[simp] theorem beginStep_ctl (s : State) : (beginStep s).ctl = s.ctl := rfl
@[simp] theorem beginStep_we (s : State) : (beginStep s).we = s.we := rfl
@[simp] theorem beginStep_sq (s : State) : (beginStep s).sq = s.sq := rfl

/-! ## setResult -/

@[simp] theorem setResult_cfg (s : State) (v : Byte) : (setResult s v).cfg = s.cfg := rfl
@[simp] theorem setResult_env (s : State) (v : Byte) : (setResult s v).env = s.env := rfl
@[simp] theorem setResult_io (s : State) (v : Byte) : (setResult s v).io = { s.io with result := v } := rfl
@[simp] theorem setResult_bs (s : State) (v : Byte) : (setResult s v).bs = s.bs := rfl
@[simp] theorem setResult_fb (s : State) (v : Byte) : (setResult s v).fb = s.fb := rfl
@[simp] theorem setResult_bus (s : State) (v : Byte) : (setResult s v).bus = s.bus := rfl
@[simp] theorem setResult_rf (s : State) (v : Byte) : (setResult s v).rf = s.rf := rfl
@[simp] theorem setResult_out (s : State) (v : Byte) : (setResult s v).out = s.out := rfl
@[simp] theorem setResult_ctl (s : State) (v : Byte) : (setResult s v).ctl = s.ctl := rfl
@[simp] theorem setResult_we (s : State) (v : Byte) : (setResult s v).we = s.we := rfl
@[simp] theorem setResult_sq (s : State) (v : Byte) : (setResult s v).sq = s.sq := rfl

/-! ## latchInputs -/

@[simp] theorem latchInputs_cfg (p : Presented) (s : State) : (latchInputs p s).cfg = s.cfg := rfl
@[simp] theorem latchInputs_env (p : Presented) (s : State) : (latchInputs p s).env = s.env := rfl
@[simp] theorem latchInputs_io (p : Presented) (s : State) : (latchInputs p s).io = { s.io with now_us := p.now_us, now_ms := p.now_ms } := rfl
@[simp] theorem latchInputs_bs (p : Presented) (s : State) : (latchInputs p s).bs = s.bs := rfl
@[simp] theorem latchInputs_fb (p : Presented) (s : State) : (latchInputs p s).fb = s.fb := rfl
@[simp] theorem latchInputs_bus (p : Presented) (s : State) : (latchInputs p s).bus = s.bus := rfl
@[simp] theorem latchInputs_rf (p : Presented) (s : State) : (latchInputs p s).rf = s.rf := rfl
@[simp] theorem latchInputs_out (p : Presented) (s : State) : (latchInputs p s).out = s.out := rfl
@[simp] theorem latchInputs_ctl (p : Presented) (s : State) : (latchInputs p s).ctl = s.ctl := rfl
@[simp] theorem latchInputs_we (p : Presented) (s : State) : (latchInputs p s).we = s.we := rfl
@[simp] theorem latchInputs_sq (p : Presented) (s : State) : (latchInputs p s).sq = s.sq := rfl

/-! ## presentFirst -/

@[simp] theorem presentFirst_cfg (p : Port) (w : Word) (s : State) : (presentFirst p w s).cfg = s.cfg := rfl
@[simp] theorem presentFirst_env (p : Port) (w : Word) (s : State) : (presentFirst p w s).env = { s.env with pending := ⟨p, w, s.io.now_us, s.io.now_ms⟩ :: s.env.pending } := rfl
@[simp] theorem presentFirst_io (p : Port) (w : Word) (s : State) : (presentFirst p w s).io = s.io := rfl
@[simp] theorem presentFirst_bs (p : Port) (w : Word) (s : State) : (presentFirst p w s).bs = s.bs := rfl
@[simp] theorem presentFirst_fb (p : Port) (w : Word) (s : State) : (presentFirst p w s).fb = s.fb := rfl
@[simp] theorem presentFirst_bus (p : Port) (w : Word) (s : State) : (presentFirst p w s).bus = s.bus := rfl
@[simp] theorem presentFirst_rf (p : Port) (w : Word) (s : State) : (presentFirst p w s).rf = s.rf := rfl
@[simp] theorem presentFirst_out (p : Port) (w : Word) (s : State) : (presentFirst p w s).out = s.out := rfl
@[simp] theorem presentFirst_ctl (p : Port) (w : Word) (s : State) : (presentFirst p w s).ctl = s.ctl := rfl
@[simp] theorem presentFirst_we (p : Port) (w : Word) (s : State) : (presentFirst p w s).we = s.we := rfl
@[simp] theorem presentFirst_sq (p : Port) (w : Word) (s : State) : (presentFirst p w s).sq = s.sq := rfl

/-! ## complete -/

@[simp] theorem complete_cfg (s : State) : (complete s).cfg = s.cfg := rfl
@[simp] theorem complete_env (s : State) : (complete s).env = s.env := rfl
@[simp] theorem complete_io (s : State) : (complete s).io = 
      { s.io with raised := s.io.raised ++ completionConditions (admitFrame s.cfg s.bs s.rf).1 s.fb } := rfl
@[simp] theorem complete_bs (s : State) : (complete s).bs = clearAccumulators s.bs := rfl
@[simp] theorem complete_fb (s : State) : (complete s).fb = bufferAfter (admitFrame s.cfg s.bs s.rf).1 s.bs s.fb := rfl
@[simp] theorem complete_bus (s : State) : (complete s).bus = { s.bus with t_gap := s.io.now_ms, gap_seen := true } := rfl
@[simp] theorem complete_rf (s : State) : (complete s).rf = (admitFrame s.cfg s.bs s.rf).2 := rfl
@[simp] theorem complete_out (s : State) : (complete s).out = latchModule s.ctl.mod_en s.bs s.out := rfl
@[simp] theorem complete_ctl (s : State) : (complete s).ctl = s.ctl := rfl
@[simp] theorem complete_we (s : State) : (complete s).we =
    holdRelease s.cfg s.ctl.wr_en (hasCmd s.bs) (byteAt s.bs.acc_p 0) s.we := rfl
@[simp] theorem complete_sq (s : State) : (complete s).sq = s.sq := rfl

/-! ## sampleModule -/

@[simp] theorem sampleModule_cfg (d : Bool) (s : State) : (sampleModule d s).cfg = s.cfg := rfl
@[simp] theorem sampleModule_env (d : Bool) (s : State) : (sampleModule d s).env = s.env := rfl
@[simp] theorem sampleModule_io (d : Bool) (s : State) : (sampleModule d s).io = s.io := rfl
@[simp] theorem sampleModule_bs (d : Bool) (s : State) : (sampleModule d s).bs = moduleBit s.cfg s.ctl.mod_en s.fb.buf_len.toNat d s.bs := rfl
@[simp] theorem sampleModule_fb (d : Bool) (s : State) : (sampleModule d s).fb = s.fb := rfl
@[simp] theorem sampleModule_bus (d : Bool) (s : State) : (sampleModule d s).bus = s.bus := rfl
@[simp] theorem sampleModule_rf (d : Bool) (s : State) : (sampleModule d s).rf = s.rf := rfl
@[simp] theorem sampleModule_out (d : Bool) (s : State) : (sampleModule d s).out = s.out := rfl
@[simp] theorem sampleModule_ctl (d : Bool) (s : State) : (sampleModule d s).ctl = s.ctl := rfl
@[simp] theorem sampleModule_we (d : Bool) (s : State) : (sampleModule d s).we = s.we := rfl
@[simp] theorem sampleModule_sq (d : Bool) (s : State) : (sampleModule d s).sq = s.sq := rfl

/-! ## samplePanel -/

@[simp] theorem samplePanel_cfg (d : Bool) (s : State) : (samplePanel d s).cfg = s.cfg := rfl
@[simp] theorem samplePanel_env (d : Bool) (s : State) : (samplePanel d s).env = s.env := rfl
@[simp] theorem samplePanel_io (d : Bool) (s : State) : (samplePanel d s).io = s.io := rfl
@[simp] theorem samplePanel_bs (d : Bool) (s : State) : (samplePanel d s).bs = panelBit d s.bs := rfl
@[simp] theorem samplePanel_fb (d : Bool) (s : State) : (samplePanel d s).fb = s.fb := rfl
@[simp] theorem samplePanel_bus (d : Bool) (s : State) : (samplePanel d s).bus = s.bus := rfl
@[simp] theorem samplePanel_rf (d : Bool) (s : State) : (samplePanel d s).rf = s.rf := rfl
@[simp] theorem samplePanel_out (d : Bool) (s : State) : (samplePanel d s).out = s.out := rfl
@[simp] theorem samplePanel_ctl (d : Bool) (s : State) : (samplePanel d s).ctl = s.ctl := rfl
@[simp] theorem samplePanel_we (d : Bool) (s : State) : (samplePanel d s).we = s.we := rfl
@[simp] theorem samplePanel_sq (d : Bool) (s : State) : (samplePanel d s).sq = s.sq := rfl

/-! ## drainSlot -/

@[simp] theorem drainSlot_cfg (s : State) : (drainSlot s).cfg = s.cfg := rfl
@[simp] theorem drainSlot_env (s : State) : (drainSlot s).env = s.env := rfl
@[simp] theorem drainSlot_io (s : State) : (drainSlot s).io = s.io := rfl
@[simp] theorem drainSlot_bs (s : State) : (drainSlot s).bs = s.bs := rfl
@[simp] theorem drainSlot_fb (s : State) : (drainSlot s).fb = advanceRead s.fb := rfl
@[simp] theorem drainSlot_bus (s : State) : (drainSlot s).bus = s.bus := rfl
@[simp] theorem drainSlot_rf (s : State) : (drainSlot s).rf = s.rf := rfl
@[simp] theorem drainSlot_out (s : State) : (drainSlot s).out = copySlot s.fb s.out := rfl
@[simp] theorem drainSlot_ctl (s : State) : (drainSlot s).ctl = s.ctl := rfl
@[simp] theorem drainSlot_we (s : State) : (drainSlot s).we = s.we := rfl
@[simp] theorem drainSlot_sq (s : State) : (drainSlot s).sq = s.sq := rfl

/-! ## clearSticky -/

@[simp] theorem clearSticky_cfg (m : Byte) (s : State) : (clearSticky m s).cfg = s.cfg := rfl
@[simp] theorem clearSticky_env (m : Byte) (s : State) : (clearSticky m s).env = s.env := rfl
@[simp] theorem clearSticky_io (m : Byte) (s : State) : (clearSticky m s).io = s.io := rfl
@[simp] theorem clearSticky_bs (m : Byte) (s : State) : (clearSticky m s).bs = s.bs := rfl
@[simp] theorem clearSticky_fb (m : Byte) (s : State) : (clearSticky m s).fb = { s.fb with ovf := s.fb.ovf && !m.getLsbD 0 } := rfl
@[simp] theorem clearSticky_bus (m : Byte) (s : State) : (clearSticky m s).bus = { s.bus with conn_chg := s.bus.conn_chg && !m.getLsbD 2 } := rfl
@[simp] theorem clearSticky_rf (m : Byte) (s : State) : (clearSticky m s).rf = s.rf := rfl
@[simp] theorem clearSticky_out (m : Byte) (s : State) : (clearSticky m s).out = s.out := rfl
@[simp] theorem clearSticky_ctl (m : Byte) (s : State) : (clearSticky m s).ctl = s.ctl := rfl
@[simp] theorem clearSticky_we (m : Byte) (s : State) : (clearSticky m s).we = s.we := rfl
@[simp] theorem clearSticky_sq (m : Byte) (s : State) : (clearSticky m s).sq = s.sq := rfl

/-! ## resetStep -/

@[simp] theorem resetStep_cfg (s : State) : (resetStep s).cfg = s.cfg := rfl
@[simp] theorem resetStep_env (s : State) : (resetStep s).env = s.env := rfl
@[simp] theorem resetStep_io (s : State) : (resetStep s).io = s.io := rfl
@[simp] theorem resetStep_bs (s : State) : (resetStep s).bs = (powerUp s.cfg).bs := rfl
@[simp] theorem resetStep_fb (s : State) : (resetStep s).fb = (powerUp s.cfg).fb := rfl
@[simp] theorem resetStep_bus (s : State) : (resetStep s).bus = (powerUp s.cfg).bus := rfl
@[simp] theorem resetStep_rf (s : State) : (resetStep s).rf = (powerUp s.cfg).rf := rfl
@[simp] theorem resetStep_out (s : State) : (resetStep s).out = (powerUp s.cfg).out := rfl
@[simp] theorem resetStep_ctl (s : State) : (resetStep s).ctl = (powerUp s.cfg).ctl := rfl
@[simp] theorem resetStep_we (s : State) : (resetStep s).we = (powerUp s.cfg).we := rfl
@[simp] theorem resetStep_sq (s : State) : (resetStep s).sq = (powerUp s.cfg).sq := rfl

/-! ## takePresented -/

@[simp] theorem takePresented_cfg (s : State) : (takePresented s).2.cfg = s.cfg := by
  unfold takePresented; split <;> rfl
@[simp] theorem takePresented_io (s : State) : (takePresented s).2.io = s.io := by
  unfold takePresented; split <;> rfl
@[simp] theorem takePresented_bs (s : State) : (takePresented s).2.bs = s.bs := by
  unfold takePresented; split <;> rfl
@[simp] theorem takePresented_fb (s : State) : (takePresented s).2.fb = s.fb := by
  unfold takePresented; split <;> rfl
@[simp] theorem takePresented_bus (s : State) : (takePresented s).2.bus = s.bus := by
  unfold takePresented; split <;> rfl
@[simp] theorem takePresented_rf (s : State) : (takePresented s).2.rf = s.rf := by
  unfold takePresented; split <;> rfl
@[simp] theorem takePresented_out (s : State) : (takePresented s).2.out = s.out := by
  unfold takePresented; split <;> rfl
@[simp] theorem takePresented_ctl (s : State) : (takePresented s).2.ctl = s.ctl := by
  unfold takePresented; split <;> rfl
@[simp] theorem takePresented_we (s : State) : (takePresented s).2.we = s.we := by
  unfold takePresented; split <;> rfl
@[simp] theorem takePresented_sq (s : State) : (takePresented s).2.sq = s.sq := by
  unfold takePresented; split <;> rfl

/-! ## raiseIf -/

@[simp] theorem raiseIf_cfg (b : Bool) (c : Condition) (s : State) : (raiseIf b c s).cfg = s.cfg := by
  cases b <;> rfl
@[simp] theorem raiseIf_env (b : Bool) (c : Condition) (s : State) : (raiseIf b c s).env = s.env := by
  cases b <;> rfl
@[simp] theorem raiseIf_bs (b : Bool) (c : Condition) (s : State) : (raiseIf b c s).bs = s.bs := by
  cases b <;> rfl
@[simp] theorem raiseIf_fb (b : Bool) (c : Condition) (s : State) : (raiseIf b c s).fb = s.fb := by
  cases b <;> rfl
@[simp] theorem raiseIf_bus (b : Bool) (c : Condition) (s : State) : (raiseIf b c s).bus = s.bus := by
  cases b <;> rfl
@[simp] theorem raiseIf_rf (b : Bool) (c : Condition) (s : State) : (raiseIf b c s).rf = s.rf := by
  cases b <;> rfl
@[simp] theorem raiseIf_out (b : Bool) (c : Condition) (s : State) : (raiseIf b c s).out = s.out := by
  cases b <;> rfl
@[simp] theorem raiseIf_ctl (b : Bool) (c : Condition) (s : State) : (raiseIf b c s).ctl = s.ctl := by
  cases b <;> rfl
@[simp] theorem raiseIf_we (b : Bool) (c : Condition) (s : State) : (raiseIf b c s).we = s.we := by
  cases b <;> rfl
@[simp] theorem raiseIf_sq (b : Bool) (c : Condition) (s : State) : (raiseIf b c s).sq = s.sq := by
  cases b <;> rfl
@[simp] theorem raiseIf_io (b : Bool) (c : Condition) (s : State) :
    (raiseIf b c s).io = { s.io with raised := s.io.raised ++ if b then [c] else [] } := by
  cases b <;> simp [raiseIf]

/-! ## submitChar: the engine alone -/

@[simp] theorem submitChar_cfg (c : Byte) (s : State) : (submitChar c s).1.cfg = s.cfg := by
  simp [submitChar]
@[simp] theorem submitChar_env (c : Byte) (s : State) : (submitChar c s).1.env = s.env := by
  simp [submitChar]
@[simp] theorem submitChar_bs (c : Byte) (s : State) : (submitChar c s).1.bs = s.bs := by
  simp [submitChar]
@[simp] theorem submitChar_fb (c : Byte) (s : State) : (submitChar c s).1.fb = s.fb := by
  simp [submitChar]
@[simp] theorem submitChar_bus (c : Byte) (s : State) : (submitChar c s).1.bus = s.bus := by
  simp [submitChar]
@[simp] theorem submitChar_rf (c : Byte) (s : State) : (submitChar c s).1.rf = s.rf := by
  simp [submitChar]
@[simp] theorem submitChar_out (c : Byte) (s : State) : (submitChar c s).1.out = s.out := by
  simp [submitChar]
@[simp] theorem submitChar_ctl (c : Byte) (s : State) : (submitChar c s).1.ctl = s.ctl := by
  simp [submitChar]
@[simp] theorem submitChar_sq (c : Byte) (s : State) : (submitChar c s).1.sq = s.sq := by
  simp [submitChar]
@[simp] theorem submitChar_we (c : Byte) (s : State) :
    (submitChar c s).1.we = (submit s.cfg s.ctl.wr_en s.io.now_ms c s.we).1 := by
  simp [submitChar]
@[simp] theorem submitChar_io (c : Byte) (s : State) : (submitChar c s).1.io = s.io := rfl
@[simp] theorem submitChar_result (c : Byte) (s : State) :
    (submitChar c s).2 = (submit s.cfg s.ctl.wr_en s.io.now_ms c s.we).2 := rfl

/-! ## checkPanel: the output's `crc_ok` and the raised conditions alone -/

@[simp] theorem checkPanel_cfg (s : State) : (checkPanel s).cfg = s.cfg := by simp [checkPanel]
@[simp] theorem checkPanel_env (s : State) : (checkPanel s).env = s.env := by simp [checkPanel]
@[simp] theorem checkPanel_bs (s : State) : (checkPanel s).bs = s.bs := by simp [checkPanel]
@[simp] theorem checkPanel_fb (s : State) : (checkPanel s).fb = s.fb := by simp [checkPanel]
@[simp] theorem checkPanel_bus (s : State) : (checkPanel s).bus = s.bus := by simp [checkPanel]
@[simp] theorem checkPanel_rf (s : State) : (checkPanel s).rf = s.rf := by simp [checkPanel]
@[simp] theorem checkPanel_ctl (s : State) : (checkPanel s).ctl = s.ctl := by simp [checkPanel]
@[simp] theorem checkPanel_we (s : State) : (checkPanel s).we = s.we := by simp [checkPanel]
@[simp] theorem checkPanel_sq (s : State) : (checkPanel s).sq = s.sq := by simp [checkPanel]
@[simp] theorem checkPanel_out (s : State) :
    (checkPanel s).out = { s.out with
      crc_ok := crcValid s.ctl.crc_exempt s.out.panel_data s.out.panel_bytes.toNat } := by
  simp [checkPanel]

/-! ## Updates of one unit -/

@[simp] theorem armTimer_t_rise (t : Word) (b : BitSampler) : (armTimer t b).t_rise = b.t_rise := rfl
@[simp] theorem armTimer_clk_high_time (t : Word) (b : BitSampler) : (armTimer t b).clk_high_time = b.clk_high_time := rfl
@[simp] theorem armTimer_tmr_armed (t : Word) (b : BitSampler) : (armTimer t b).tmr_armed = true := rfl
@[simp] theorem armTimer_tmr_t_arm (t : Word) (b : BitSampler) : (armTimer t b).tmr_t_arm = t := rfl
@[simp] theorem armTimer_acc_p (t : Word) (b : BitSampler) : (armTimer t b).acc_p = b.acc_p := rfl
@[simp] theorem armTimer_p_bit_total (t : Word) (b : BitSampler) : (armTimer t b).p_bit_total = b.p_bit_total := rfl
@[simp] theorem armTimer_p_bit_count (t : Word) (b : BitSampler) : (armTimer t b).p_bit_count = b.p_bit_count := rfl
@[simp] theorem armTimer_p_byte_count (t : Word) (b : BitSampler) : (armTimer t b).p_byte_count = b.p_byte_count := rfl
@[simp] theorem armTimer_acc_m (t : Word) (b : BitSampler) : (armTimer t b).acc_m = b.acc_m := rfl
@[simp] theorem armTimer_m_bit_total (t : Word) (b : BitSampler) : (armTimer t b).m_bit_total = b.m_bit_total := rfl
@[simp] theorem armTimer_m_bit_count (t : Word) (b : BitSampler) : (armTimer t b).m_bit_count = b.m_bit_count := rfl
@[simp] theorem armTimer_m_byte_count (t : Word) (b : BitSampler) : (armTimer t b).m_byte_count = b.m_byte_count := rfl
@[simp] theorem armTimer_m_detect (t : Word) (b : BitSampler) : (armTimer t b).m_detect = b.m_detect := rfl

@[simp] theorem clearAccumulators_t_rise (b : BitSampler) : (clearAccumulators b).t_rise = b.t_rise := rfl
@[simp] theorem clearAccumulators_clk_high_time (b : BitSampler) : (clearAccumulators b).clk_high_time = b.clk_high_time := rfl
@[simp] theorem clearAccumulators_tmr_armed (b : BitSampler) : (clearAccumulators b).tmr_armed = b.tmr_armed := rfl
@[simp] theorem clearAccumulators_tmr_t_arm (b : BitSampler) : (clearAccumulators b).tmr_t_arm = b.tmr_t_arm := rfl
@[simp] theorem clearAccumulators_acc_p (b : BitSampler) : (clearAccumulators b).acc_p = zeroFrame := rfl
@[simp] theorem clearAccumulators_p_bit_total (b : BitSampler) : (clearAccumulators b).p_bit_total = 0 := rfl
@[simp] theorem clearAccumulators_p_bit_count (b : BitSampler) : (clearAccumulators b).p_bit_count = 0 := rfl
@[simp] theorem clearAccumulators_p_byte_count (b : BitSampler) : (clearAccumulators b).p_byte_count = 0 := rfl
@[simp] theorem clearAccumulators_acc_m (b : BitSampler) : (clearAccumulators b).acc_m = zeroFrame := rfl
@[simp] theorem clearAccumulators_m_bit_total (b : BitSampler) : (clearAccumulators b).m_bit_total = 0 := rfl
@[simp] theorem clearAccumulators_m_bit_count (b : BitSampler) : (clearAccumulators b).m_bit_count = 0 := rfl
@[simp] theorem clearAccumulators_m_byte_count (b : BitSampler) : (clearAccumulators b).m_byte_count = 0 := rfl
@[simp] theorem clearAccumulators_m_detect (b : BitSampler) : (clearAccumulators b).m_detect = false := rfl

@[simp] theorem panelStop_t_rise (b : BitSampler) : (panelStop b).t_rise = b.t_rise := rfl
@[simp] theorem panelStop_clk_high_time (b : BitSampler) : (panelStop b).clk_high_time = b.clk_high_time := rfl
@[simp] theorem panelStop_tmr_armed (b : BitSampler) : (panelStop b).tmr_armed = b.tmr_armed := rfl
@[simp] theorem panelStop_tmr_t_arm (b : BitSampler) : (panelStop b).tmr_t_arm = b.tmr_t_arm := rfl
@[simp] theorem panelStop_acc_p (b : BitSampler) : (panelStop b).acc_p = setByte b.acc_p 1 Config.stopValue := rfl
@[simp] theorem panelStop_p_bit_total (b : BitSampler) : (panelStop b).p_bit_total = b.p_bit_total := rfl
@[simp] theorem panelStop_p_bit_count (b : BitSampler) : (panelStop b).p_bit_count = 0 := rfl
@[simp] theorem panelStop_p_byte_count (b : BitSampler) : (panelStop b).p_byte_count = b.p_byte_count + 1 := rfl
@[simp] theorem panelStop_acc_m (b : BitSampler) : (panelStop b).acc_m = b.acc_m := rfl
@[simp] theorem panelStop_m_bit_total (b : BitSampler) : (panelStop b).m_bit_total = b.m_bit_total := rfl
@[simp] theorem panelStop_m_bit_count (b : BitSampler) : (panelStop b).m_bit_count = b.m_bit_count := rfl
@[simp] theorem panelStop_m_byte_count (b : BitSampler) : (panelStop b).m_byte_count = b.m_byte_count := rfl
@[simp] theorem panelStop_m_detect (b : BitSampler) : (panelStop b).m_detect = b.m_detect := rfl

@[simp] theorem driveBit_wr_state (k : Nat) (b : WriteEngine) : (driveBit k b).wr_state = b.wr_state := rfl
@[simp] theorem driveBit_wr_key (k : Nat) (b : WriteEngine) : (driveBit k b).wr_key = b.wr_key := rfl
@[simp] theorem driveBit_wr_part (k : Nat) (b : WriteEngine) : (driveBit k b).wr_part = b.wr_part := rfl
@[simp] theorem driveBit_wr_byte (k : Nat) (b : WriteEngine) : (driveBit k b).wr_byte = b.wr_byte := rfl
@[simp] theorem driveBit_wr_bit (k : Nat) (b : WriteEngine) : (driveBit k b).wr_bit = b.wr_bit := rfl
@[simp] theorem driveBit_wr_group (k : Nat) (b : WriteEngine) : (driveBit k b).wr_group = b.wr_group := rfl
@[simp] theorem driveBit_wr_ast (k : Nat) (b : WriteEngine) : (driveBit k b).wr_ast = b.wr_ast := rfl
@[simp] theorem driveBit_ast_skip (k : Nat) (b : WriteEngine) : (driveBit k b).ast_skip = b.ast_skip := rfl
@[simp] theorem driveBit_part_prefix (k : Nat) (b : WriteEngine) : (driveBit k b).part_prefix = b.part_prefix := rfl
@[simp] theorem driveBit_t_alarm (k : Nat) (b : WriteEngine) : (driveBit k b).t_alarm = b.t_alarm := rfl
@[simp] theorem driveBit_alarm_seen (k : Nat) (b : WriteEngine) : (driveBit k b).alarm_seen = b.alarm_seen := rfl
@[simp] theorem driveBit_wr_line (k : Nat) (b : WriteEngine) : (driveBit k b).wr_line = !b.wr_key.getLsbD k := rfl

@[simp] theorem abandonQueue_wstr_q (b : StringQueue) : (abandonQueue b).wstr_q = b.wstr_q := rfl
@[simp] theorem abandonQueue_wstr_len (b : StringQueue) : (abandonQueue b).wstr_len = 0 := rfl
@[simp] theorem abandonQueue_wstr_cur (b : StringQueue) : (abandonQueue b).wstr_cur = 0 := rfl
@[simp] theorem abandonQueue_wstr_active (b : StringQueue) : (abandonQueue b).wstr_active = false := rfl

end Sys2Proof.Machine
end

