-- ==== Sys2Proof/Laws/Ops.lean ====
section
/-! SUPPORT. What the shared operations do, said once: arrays, counters, the end of a step, and one
inversion lemma for each operation that has several ways to go. -/

namespace Sys2Proof.Machine

/-! ## Arrays -/

theorem vget_of_lt {α : Type} {n : Nat} (v : Vector α n) (i : Nat) (d : α) (h : i < n) :
    vget v i d = v[i] := by
  simp [vget, h]

@[simp] theorem vget_of_ge {α : Type} {n : Nat} (v : Vector α n) (i : Nat) (d : α) (h : n ≤ i) :
    vget v i d = d := by
  have : ¬i < n := by omega
  simp [vget, this]

theorem vget_vset {α : Type} {n : Nat} (v : Vector α n) (i j : Nat) (x d : α) :
    vget (vset v i x) j d = if i = j ∧ j < n then x else vget v j d := by
  by_cases hj : j < n
  · simp only [vget, vset, Vector.getElem?_eq_getElem hj, Option.getD_some, Vector.getElem_setIfInBounds,
      hj, and_true]
  · simp [vget, hj]

@[simp] theorem vget_vset_self {α : Type} {n : Nat} (v : Vector α n) (i : Nat) (x d : α) (h : i < n) :
    vget (vset v i x) i d = x := by
  simp [vget_vset, h]

@[simp] theorem vget_vset_ne {α : Type} {n : Nat} (v : Vector α n) (i j : Nat) (x d : α) (h : i ≠ j) :
    vget (vset v i x) j d = vget v j d := by
  simp [vget_vset, h]

@[simp] theorem vget_replicate {α : Type} (n i : Nat) (x : α) :
    vget (Vector.replicate n x) i x = x := by
  by_cases h : i < n <;> simp [vget, h]

theorem byteAt_setByte (f : Frame) (i j : Nat) (b : Byte) :
    byteAt (setByte f i b) j = if i = j ∧ j < 16 then b else byteAt f j := by
  simp only [byteAt, setByte, vget_vset]

@[simp] theorem byteAt_setByte_self (f : Frame) (i : Nat) (b : Byte) (h : i < 16) :
    byteAt (setByte f i b) i = b := by
  simp [byteAt_setByte, h]

@[simp] theorem byteAt_setByte_ne (f : Frame) (i j : Nat) (b : Byte) (h : i ≠ j) :
    byteAt (setByte f i b) j = byteAt f j := by
  simp [byteAt_setByte, h]

@[simp] theorem byteAt_zeroFrame (i : Nat) : byteAt zeroFrame i = 0x00#8 := by
  simp [byteAt, zeroFrame]

@[simp] theorem byteAt_of_ge (f : Frame) (i : Nat) (h : 16 ≤ i) : byteAt f i = 0x00#8 := by
  simp [byteAt, h]

/-- Two frames are equal when their sixteen bytes are. -/
theorem frame_ext {f g : Frame} (h : ∀ i < 16, byteAt f i = byteAt g i) : f = g := by
  apply Vector.ext
  intro i hi
  have := h i hi
  simpa [byteAt, vget, hi] using this

/-! ## Counters and bits -/

theorem satIncr_toNat (v : Byte) : (satIncr v).toNat = min (v.toNat + 1) 255 := by
  revert v; decide

theorem shiftIn_toNat (b : Byte) (d : Bool) :
    (shiftIn b d).toNat = (2 * b.toNat + d.toNat) % 256 := by
  revert b d; decide

/-- The bits of a byte after one more bit is shifted in. -/
theorem shiftIn_bit (b : Byte) (d : Bool) (k : Nat) (h : k < 8) :
    (shiftIn b d).getLsbD k = if k = 0 then d else b.getLsbD (k - 1) := by
  have : ∀ k : Fin 8, ∀ b : Byte, ∀ d : Bool,
      (shiftIn b d).getLsbD k.val = if k.val = 0 then d else b.getLsbD (k.val - 1) := by decide
  exact this ⟨k, h⟩ b d

/-! ## The end of a step -/

@[simp] theorem conclude_pair (s : State) (v : Byte) : conclude (s, v) = .next (setResult s v) := rfl

/-- Push the end of a step into a choice between two ends. -/
theorem conclude_ite (c : Prop) [Decidable c] (a b : State × Byte) :
    conclude (if c then a else b) = if c then conclude a else conclude b := by
  split <;> rfl

theorem conclude_eq (r : State × Byte) : conclude r = .next (setResult r.1 r.2) := rfl

/-- Every meaning concludes: what it answers next is its state with its result. -/
theorem conclude_next {r : State × Byte} {t : State} (h : conclude r = .next t) :
    t = setResult r.1 r.2 := by
  injection h with h; exact h.symm

/-! ## Filter -/

theorem sameBytes_iff (a b : Frame) (n : Nat) :
    sameBytes a b n = true ↔ ∀ i < n, byteAt a i = byteAt b i := by
  induction n with
  | zero => simp [sameBytes]
  | succ n ih =>
    simp only [sameBytes, Bool.and_eq_true, ih, beq_iff_eq]
    constructor
    · rintro ⟨h, e⟩ i hi
      rcases Nat.lt_succ_iff_lt_or_eq.mp hi with h' | rfl
      · exact h i h'
      · exact e
    · intro h
      exact ⟨fun i hi => h i (by omega), h n (by omega)⟩

/-- A cache equal to the candidate over all sixteen bytes is the candidate. -/
theorem sameBytes_full {a b : Frame} (h : sameBytes a b 16 = true) : a = b :=
  frame_ext ((sameBytes_iff a b 16).mp h)

/-! ## One inversion lemma per operation with several ways to go -/

/-- `PresenceUpdate` does nothing or flips `connected` and sets `conn_chg`. -/
theorem presenceUpdate_cases (limit now : Word) (b : Presence) :
    (connNow limit now b = b.connected ∧ presenceUpdate limit now b = b) ∨
      (connNow limit now b ≠ b.connected ∧
        presenceUpdate limit now b = { b with connected := connNow limit now b, conn_chg := true }) := by
  by_cases h : connNow limit now b = b.connected
  · exact .inl ⟨h, by simp [presenceUpdate, h]⟩
  · exact .inr ⟨h, by simp [presenceUpdate, h]⟩

/-- Admission is short with the caches kept, or decided by cache A, or by cache B, or free. -/
theorem admit_cases (p : Params) (b : BitSampler) (f : FilterState) :
    (hasCmd b = false ∧ admitFrame p b f = (.short, f)) ∨
    (hasCmd b = true ∧ byteAt b.acc_p 0 = p.isr_code_a ∧
      admitFrame p b f = (admissionOf (redundantIn f.cacheA b.acc_p 16),
        { f with cacheA := cacheAfter f.cacheA b.acc_p 16 })) ∨
    (hasCmd b = true ∧ byteAt b.acc_p 0 ≠ p.isr_code_a ∧ byteAt b.acc_p 0 = p.isr_code_b ∧
      admitFrame p b f = (admissionOf (redundantIn f.cacheB b.acc_p 16),
        { f with cacheB := cacheAfter f.cacheB b.acc_p 16 })) ∨
    (hasCmd b = true ∧ byteAt b.acc_p 0 ≠ p.isr_code_a ∧ byteAt b.acc_p 0 ≠ p.isr_code_b ∧
      admitFrame p b f = (.admitted, f)) := by
  unfold admitFrame
  cases h : hasCmd b
  · simp
  · by_cases ha : byteAt b.acc_p 0 = p.isr_code_a
    · simp [ha, isRedundant]
    · by_cases hb : byteAt b.acc_p 0 = p.isr_code_b
      · simp_all [isRedundant]
      · simp [ha, hb]

/-- After a non-short completion of a monitored frame its cache holds the frame. -/
theorem cacheAfter_full (c : Cache) (f : Frame) : cacheAfter c f 16 = ⟨true, f⟩ := by
  unfold cacheAfter
  split
  · next h =>
    simp only [redundantIn, Bool.and_eq_true] at h
    obtain ⟨v, e⟩ := h
    obtain ⟨cv, cd⟩ := c
    obtain rfl : cd = f := sameBytes_full e
    exact congrArg (Cache.mk · cd) v
  · rfl

/-- The FrameBuffer after a completion: as before, overflowed, or one frame longer. -/
theorem bufferAfter_cases (a : Admission) (b : BitSampler) (fb : FrameBuffer) :
    (a ≠ .admitted ∧ bufferAfter a b fb = fb) ∨
    (a = .admitted ∧ fb.buf_len.toNat = 10 ∧ bufferAfter a b fb = { fb with ovf := true }) ∨
    (a = .admitted ∧ fb.buf_len.toNat ≠ 10 ∧ bufferAfter a b fb = { fb with
      buf_data := vset fb.buf_data fb.buf_len.toNat b.acc_p
      buf_bytes := vset fb.buf_bytes fb.buf_len.toNat b.p_byte_count
      buf_bits := vset fb.buf_bits fb.buf_len.toNat b.p_bit_total
      cur_cmd := byteAt b.acc_p 0
      buf_len := fb.buf_len + 1 }) := by
  by_cases ha : a = .admitted
  · by_cases hf : fb.buf_len.toNat = 10 <;> simp [bufferAfter, appendFrame, bufFull, ha, hf]
  · simp [bufferAfter, ha]

/-- The timer's expiry: nothing, a panel bit, or a low sample after or without a completion. -/
theorem timerExpiry_cases (c d : Bool) (s : State) :
    (s.bs.tmr_armed = false ∧ timerExpiry c d s = s) ∨
    (s.bs.tmr_armed = true ∧ c = true ∧
      timerExpiry c d s = samplePanel d { s with bs := { s.bs with tmr_armed := false } }) ∨
    (s.bs.tmr_armed = true ∧ c = false ∧ gapSeen s.cfg s.bs = true ∧
      timerExpiry c d s =
        sampleModule d (complete { s with bs := { s.bs with tmr_armed := false } })) ∨
    (s.bs.tmr_armed = true ∧ c = false ∧ gapSeen s.cfg s.bs = false ∧
      timerExpiry c d s = sampleModule d { s with bs := { s.bs with tmr_armed := false } }) := by
  unfold timerExpiry
  cases h : s.bs.tmr_armed
  · simp
  · cases c
    · have : gapSeen s.cfg { s.bs with tmr_armed := false } = gapSeen s.cfg s.bs := rfl
      cases hg : gapSeen s.cfg s.bs <;> simp [sampleLow, this, hg]
    · simp

/-- The drain of one slot ends the cycle or moves the read index on. -/
theorem advanceRead_cases (fb : FrameBuffer) :
    (fb.buf_len ≤ fb.buf_rd + 1 ∧ advanceRead fb = { fb with buf_len := 0, buf_rd := 0 }) ∨
    (¬fb.buf_len ≤ fb.buf_rd + 1 ∧ advanceRead fb = { fb with buf_rd := fb.buf_rd + 1 }) := by
  by_cases h : fb.buf_len ≤ fb.buf_rd + 1
  · exact .inl ⟨h, if_pos h⟩
  · exact .inr ⟨h, if_neg h⟩

/-- The string drain step: nothing, the queue abandoned, or one character submitted. -/
theorem wstrDrainStep_cases (s : State) :
    ((s.sq.wstr_active = false ∨ wrReady s.we = false) ∧ wstrDrainStep s = s) ∨
    (s.sq.wstr_active = true ∧ wrReady s.we = true ∧ atTerminator s.sq = true ∧
      wstrDrainStep s = { s with sq := abandonQueue s.sq }) ∨
    (s.sq.wstr_active = true ∧ wrReady s.we = true ∧ atTerminator s.sq = false ∧
      wstrDrainStep s =
        { (submitChar (vget s.sq.wstr_q s.sq.wstr_cur.toNat 0) s).1 with
          sq := queueAfter (submitChar (vget s.sq.wstr_q s.sq.wstr_cur.toNat 0) s).2 s.sq }) := by
  unfold wstrDrainStep
  cases ha : s.sq.wstr_active <;> cases hr : wrReady s.we <;> cases ht : atTerminator s.sq <;> simp

/-- The string drain step writes the engine and the queue alone. -/
theorem wstrDrainStep_frame (s : State) :
    (wstrDrainStep s).cfg = s.cfg ∧ (wstrDrainStep s).env = s.env ∧ (wstrDrainStep s).bs = s.bs ∧
      (wstrDrainStep s).fb = s.fb ∧ (wstrDrainStep s).bus = s.bus ∧ (wstrDrainStep s).rf = s.rf ∧
      (wstrDrainStep s).out = s.out ∧ (wstrDrainStep s).ctl = s.ctl ∧
      (wstrDrainStep s).io = s.io := by
  rcases wstrDrainStep_cases s with ⟨-, h⟩ | ⟨-, -, -, h⟩ | ⟨-, -, -, h⟩ <;> rw [h] <;>
    simp [submitChar]

/-- `Submit(c)`: turned away with the engine as it was, but for the prefix flag; a prefix or a partition;
an alarm key; a regular key. -/
theorem submit_cases (p : Params) (en : Bool) (now : Word) (c : Byte) (w : WriteEngine) :
    (∃ b, (submit p en now c w).1 = { w with part_prefix := b }) ∨
    (∃ b n, (submit p en now c w).1 = { w with part_prefix := b, wr_part := partitionOf p n }) ∨
    (∃ b code, en = true ∧ w.wr_state = .idle ∧
      (submit p en now c w).1 = armAlarmKey now code { w with part_prefix := b }) ∨
    (∃ b code, en = true ∧ w.wr_state = .idle ∧
      (submit p en now c w).1 = armRegularKey p c code { w with part_prefix := b }) := by
  have key : ∀ b, (submitKey p now c { w with part_prefix := b }).1 = { w with part_prefix := b } ∨
      (∃ code, w.wr_state = .idle ∧ (submitKey p now c { w with part_prefix := b }).1 =
        armAlarmKey now code { w with part_prefix := b }) ∨
      (∃ code, w.wr_state = .idle ∧ (submitKey p now c { w with part_prefix := b }).1 =
        armRegularKey p c code { w with part_prefix := b }) := by
    intro b
    unfold submitKey
    split
    · exact .inl rfl
    · next k _ =>
      by_cases hi : w.wr_state = .idle
      · simp only [hi, ne_eq, not_true_eq_false, if_false]
        split
        · exact .inl rfl
        · split
          · exact .inr (.inl ⟨k.code, by simp, rfl⟩)
          · exact .inr (.inr ⟨k.code, by simp, rfl⟩)
      · simp [hi]
  unfold submit
  cases en
  · exact .inl ⟨w.part_prefix, rfl⟩
  · simp only [Bool.not_true, Bool.false_eq_true, if_false]
    split
    · exact .inl ⟨true, rfl⟩
    · cases hp : w.part_prefix
      · have hw : w = { w with part_prefix := false } := by rw [← hp]
        rw [hw]
        rcases key false with h | ⟨code, hi, h⟩ | ⟨code, hi, h⟩
        · exact .inl ⟨false, by simpa using h⟩
        · exact .inr (.inr (.inl ⟨false, code, by simp, hi, by simpa using h⟩))
        · exact .inr (.inr (.inr ⟨false, code, by simp, hi, by simpa using h⟩))
      · simp only [if_true]
        split
        · exact .inr (.inl ⟨false, c.toNat - 0x30, rfl⟩)
        · rcases key false with h | ⟨code, hi, h⟩ | ⟨code, hi, h⟩
          · exact .inl ⟨false, h⟩
          · exact .inr (.inr (.inl ⟨false, code, by simp, hi, h⟩))
          · exact .inr (.inr (.inr ⟨false, code, by simp, hi, h⟩))

/-- A register write changes one unit: control, engine partition, filter, or nothing. -/
theorem memWrite_cases (s : State) (r v : Byte) :
    (r = 0x00#8 ∧ memWrite s r v = { s with ctl := writeCtrl s.cfg v s.ctl }) ∨
    (r = 0x0B#8 ∧ memWrite s r v = { s with we := { s.we with
      wr_part := partitionOf s.cfg v.toNat } }) ∨
    (∃ t, memWrite s r v = { s with ctl := { s.ctl with crc_exempt := t } }) ∨
    (∃ t, memWrite s r v = { s with ctl := { s.ctl with query_map := t } }) ∨
    (∃ t, memWrite s r v = { s with rf := { s.rf with cc := t } }) ∨
    (∃ t, memWrite s r v = { s with rf := { s.rf with cc_en := t } }) ∨ memWrite s r v = s := by
  by_cases h0 : r.toNat = 0x00
  · exact .inl ⟨BitVec.eq_of_toNat_eq h0, if_pos h0⟩
  have e0 := (if_neg h0 : memWrite s r v = _)
  by_cases h1 : r.toNat = 0x0B
  · exact .inr (.inl ⟨BitVec.eq_of_toNat_eq h1, e0.trans (if_pos h1)⟩)
  have e1 := e0.trans (if_neg h1)
  by_cases h2 : r.toNat < 0x30
  · exact .inr (.inr (.inr (.inr (.inr (.inr (e1.trans (if_pos h2)))))))
  have e2 := e1.trans (if_neg h2)
  by_cases h3 : r.toNat < 0x50
  · exact .inr (.inr (.inl ⟨_, e2.trans (if_pos h3)⟩))
  have e3 := e2.trans (if_neg h3)
  by_cases h4 : r.toNat < 0x70
  · exact .inr (.inr (.inr (.inl ⟨_, e3.trans (if_pos h4)⟩)))
  have e4 := e3.trans (if_neg h4)
  by_cases h5 : r.toNat < 0x78
  · exact .inr (.inr (.inr (.inr (.inl ⟨_, e4.trans (if_pos h5)⟩))))
  have e5 := e4.trans (if_neg h5)
  by_cases h6 : r.toNat < 0x80
  · exact .inr (.inr (.inr (.inr (.inl ⟨_, e5.trans (if_pos h6)⟩))))
  have e6 := e5.trans (if_neg h6)
  by_cases h7 : r.toNat = 0x80
  · exact .inr (.inr (.inr (.inr (.inr (.inl ⟨_, e6.trans (if_pos h7)⟩)))))
  · exact .inr (.inr (.inr (.inr (.inr (.inr (e6.trans (if_neg h7)))))))

/-- The hold release of a completion changes nothing; or, with the keypad enabled and in the hold, clears
the skip flag, or frees the engine on its group's status command. -/
theorem holdRelease_cases (p : Params) (en hasCmd : Bool) (cmd : Byte) (w : WriteEngine) :
    holdRelease p en hasCmd cmd w = w ∨
    (en = true ∧ w.wr_state = .astHold ∧ w.ast_skip = true ∧
      holdRelease p en hasCmd cmd w = { w with ast_skip := false }) ∨
    (en = true ∧ w.wr_state = .astHold ∧ w.ast_skip = false ∧ hasCmd = true ∧
      cmd = statusCmd p w.wr_group ∧ holdRelease p en hasCmd cmd w = { w with wr_state := .idle }) := by
  unfold holdRelease asteriskRelease
  cases en
  · simp
  · by_cases hs : w.wr_state = .astHold
    · cases ha : w.ast_skip
      · by_cases hc : hasCmd = true ∧ cmd = statusCmd p w.wr_group
        · simp [hs, hc]
        · simp [hs, hc]
      · simp [hs]
    · simp [hs]

/-- `WriteStep` changes the state, the line and, ending a key in the hold, the skip flag, and keeps every
request register. -/
theorem writeStep_frame (p : Params) (T : Nat) (B : BitVec 5) (cmd : Byte) (w : WriteEngine) :
    ∃ st line skip, writeStep p T B cmd w =
      { w with wr_state := st, wr_line := line, ast_skip := skip } := by
  have alarm : ∃ st line skip, alarmStep T w =
      { w with wr_state := st, wr_line := line, ast_skip := skip } := by
    unfold alarmStep
    dsimp only
    split
    · exact ⟨_, _, w.ast_skip, rfl⟩
    · split
      · exact ⟨_, _, w.ast_skip, rfl⟩
      · exact ⟨w.wr_state, w.wr_line, w.ast_skip, rfl⟩
  have reg : ∃ st line skip, regularStep p T B cmd w =
      { w with wr_state := st, wr_line := line, ast_skip := skip } := by
    unfold regularStep
    dsimp only
    split
    · exact ⟨_, _, w.ast_skip, rfl⟩
    · split
      · split
        · unfold endRegular
          split
          · exact ⟨_, _, _, rfl⟩
          · exact ⟨_, _, w.ast_skip, rfl⟩
        · exact ⟨w.wr_state, _, w.ast_skip, rfl⟩
      · exact ⟨w.wr_state, w.wr_line, w.ast_skip, rfl⟩
  unfold writeStep
  split
  · exact alarm
  · exact alarm
  · exact alarm
  · exact alarm
  · exact reg
  · exact reg
  · exact ⟨w.wr_state, w.wr_line, w.ast_skip, rfl⟩
  · exact ⟨w.wr_state, w.wr_line, w.ast_skip, rfl⟩

end Sys2Proof.Machine
end

