-- ==== Sys2Proof/Laws/PerInstr.lean ====
section
/-! SUPPORT. The per-instruction family `formatBit`: the top bit of an operation's word names the port its
format belongs to (R53, R55). -/

namespace Sys2Proof.Laws

/-- The port read from bit 31 of an operation's word is the port of its format (R53). -/
def formatBit.Statement (i : Instr) : Prop := portOfWord (encode i) = i.port

/-- Bit 31 of a word is bit 7 of its OP field (R52). -/
theorem portOfWord_ofFields (op idx val rsv : Byte) :
    portOfWord (ofFields op idx val rsv) = if op.getLsbD 7 then .bus else .host := by
  have h : BitVec.getLsbD (op ++ idx ++ val ++ rsv) 31 = op.getLsbD 7 := by
    rw [BitVec.getLsbD_append, BitVec.getLsbD_append, BitVec.getLsbD_append]; rfl
  exact congrArg (fun b : Bool => if b then Port.bus else Port.host) h

theorem formatBit.nop : formatBit.Statement .nop := rfl
theorem formatBit.pop : formatBit.Statement .pop := rfl
theorem formatBit.mread : formatBit.Statement .mread := rfl
theorem formatBit.crc : formatBit.Statement .crc := rfl
theorem formatBit.wkey (c : Byte) : formatBit.Statement (.wkey c) := portOfWord_ofFields _ _ c _
theorem formatBit.wstrClr : formatBit.Statement .wstrClr := rfl
theorem formatBit.wstrPush (c : Byte) : formatBit.Statement (.wstrPush c) :=
  portOfWord_ofFields _ _ c _
theorem formatBit.wstrGo : formatBit.Statement .wstrGo := rfl
theorem formatBit.clr (mask : Byte) : formatBit.Statement (.clr mask) := portOfWord_ofFields _ _ mask _
theorem formatBit.rd (idx : Byte) : formatBit.Statement (.rd idx) := portOfWord_ofFields _ idx _ _
theorem formatBit.wr (idx val : Byte) : formatBit.Statement (.wr idx val) :=
  portOfWord_ofFields _ idx val _
theorem formatBit.reset : formatBit.Statement .reset := rfl
theorem formatBit.evRise : formatBit.Statement .evRise := rfl
theorem formatBit.evFall : formatBit.Statement .evFall := rfl
theorem formatBit.evTimer (clk data : Bool) : formatBit.Statement (.evTimer clk data) :=
  portOfWord_ofFields _ (levelByte clk) (levelByte data) _

end Sys2Proof.Laws
end

