-- ==== Sys2Proof/Tests/Slice0.lean ====
section
/-! SUPPORT. Tests: words of spec/95_test_vectors.md against the decoder, one step per vector against the
meanings, and one witness per statement that has hypotheses. Vectors marked (gk) there use
`Params.testDefaults`; expected values are the spec's, not the model's. -/

namespace Sys2Proof.Tests

open Sys2Proof Sys2Proof.Machine

/-! ## Well-formedness -/

/-- A format H operation is ill formed at the bus port (R53). -/
theorem test_host_operation_refused_at_bus : Instr.pop.wellFormedAt .bus = false := by decide

/-- A format E operation is ill formed at the host port (R53). -/
theorem test_bus_operation_refused_at_host : Instr.evRise.wellFormedAt .host = false := by decide

/-- The default offsets are aligned; one that is not its byte's first bit is refused, and so is one in the
stop slot (R110). -/
theorem test_offsets_alignment :
    Params.testDefaults.offsetsAligned = true ∧
      ({ Params.testDefaults with write_offsets := #v[⟨2, 10⟩, ⟨3, 17⟩, ⟨8, 57⟩, ⟨9, 65⟩] } :
        Params).offsetsAligned = false ∧
      ({ Params.testDefaults with write_offsets := #v[⟨1, 1⟩, ⟨3, 17⟩, ⟨8, 57⟩, ⟨9, 65⟩] } :
        Params).offsetsAligned = false := by decide

/-! ## Decoding: EN1..EN18 and one word for every other row of R55 -/

/-- What a port makes of a word. -/
def reads (p : Port) (w : Word) : Option Instr :=
  match decodeAt p w with
  | .ok i => some i
  | .error _ => none

/-- Why a port rejects a word. -/
def rejects (p : Port) (w : Word) : Option DecodeError :=
  match decodeAt p w with
  | .ok _ => none
  | .error e => some e

/-- OP 0x00 (EN1). -/
theorem test_decode_nop : reads .host 0x00000000#32 = some .nop := by decide
/-- OP 0x01 (EN2). -/
theorem test_decode_pop : reads .host 0x01000000#32 = some .pop := by decide
/-- OP 0x02 (R55). -/
theorem test_decode_mread : reads .host 0x02000000#32 = some .mread := by decide
/-- OP 0x03 (R55). -/
theorem test_decode_crc : reads .host 0x03000000#32 = some .crc := by decide
/-- OP 0x04, VAL '5' (EN4). -/
theorem test_decode_wkey : reads .host 0x04003500#32 = some (.wkey 0x35#8) := by decide
/-- OP 0x05 (L3-5). -/
theorem test_decode_wstrClr : reads .host 0x05000000#32 = some .wstrClr := by decide
/-- OP 0x06, VAL '/' (L3-5). -/
theorem test_decode_wstrPush : reads .host 0x06002F00#32 = some (.wstrPush 0x2F#8) := by decide
/-- OP 0x07 (L3-5). -/
theorem test_decode_wstrGo : reads .host 0x07000000#32 = some .wstrGo := by decide
/-- OP 0x08, VAL 0x05 (EN17). -/
theorem test_decode_clr : reads .host 0x08000500#32 = some (.clr 0x05#8) := by decide
/-- OP 0x09, IDX 0x12 (EN6). -/
theorem test_decode_rd : reads .host 0x09120000#32 = some (.rd 0x12#8) := by decide
/-- OP 0x0A, IDX 0x0B, VAL 0x03 (EN8). -/
theorem test_decode_wr : reads .host 0x0A0B0300#32 = some (.wr 0x0B#8 0x03#8) := by decide
/-- OP 0x0B (EN18). -/
theorem test_decode_reset : reads .host 0x0B000000#32 = some .reset := by decide
/-- OP 0x80 (R55). -/
theorem test_decode_evRise : reads .bus 0x80000000#32 = some .evRise := by decide
/-- OP 0x81 (R55). -/
theorem test_decode_evFall : reads .bus 0x81000000#32 = some .evFall := by decide
/-- OP 0x82: IDX bit 0 is clk, VAL bit 0 is data (EN11, EN12 and the bus encodings of part 3). -/
theorem test_decode_evTimer :
    reads .bus 0x82010100#32 = some (.evTimer true true) ∧
      reads .bus 0x82000000#32 = some (.evTimer false false) ∧
      reads .bus 0x82010000#32 = some (.evTimer true false) ∧
      reads .bus 0x82000100#32 = some (.evTimer false true) := by decide

/-- The illegal words of the host port: EN3, EN5, EN7, EN9, EN10. -/
theorem test_illegal_host_words :
    rejects .host 0x01000001#32 = some .nonzeroRsv ∧ rejects .host 0x04013500#32 = some .nonzeroField ∧
      rejects .host 0x0900FF00#32 = some .nonzeroField ∧ rejects .host 0x0C000000#32 = some .reservedOp ∧
      rejects .host 0x80000000#32 = some .wrongPort := by decide

/-- The illegal words of the bus port: EN13..EN16. -/
theorem test_illegal_bus_words :
    rejects .bus 0x82020000#32 = some .nonzeroField ∧ rejects .bus 0x82000200#32 = some .nonzeroField ∧
      rejects .bus 0x01000000#32 = some .wrongPort ∧ rejects .bus 0x83000000#32 = some .reservedOp := by
  decide

/-- The host's question about a table word. -/
theorem test_decodeTableWord :
    decodeTableWord 32 0x0A0B0300 = some (.wr 0x0B#8 0x03#8) ∧ decodeTableWord 32 0x0C000000 = none := by
  decide

/-! ## One step at a time -/

/-- The reset state with the test-vector defaults (95_test_vectors.md). -/
def base : State := powerUp Params.testDefaults

/-- A frame from its first bytes, zero beyond. -/
def frame (l : List Byte) : Frame := Vector.ofFn (fun i : Fin 16 => l.getD i.val 0x00#8)

/-- What `f` shows of the state an operation leaves. -/
def shows {α : Type} (i : Instr) (s : State) (f : State → α) : Option α :=
  match exec i s with
  | .next t => some (f t)
  | .fault _ => none
  | .refused _ => none

/-- What `f` shows of the state one step of the machine leaves. -/
def stepShows {α : Type} (s : State) (f : State → α) : Option α :=
  match step s with
  | .next t => some (f t)
  | .fault _ => none
  | .refused _ => none

/-- One buffered frame, the read index at it. -/
def oneFrame (l : List Byte) (n : BitVec 5) (bits : Byte) : FrameBuffer :=
  { base.fb with buf_data := vset base.fb.buf_data 0 (frame l), buf_bytes := vset base.fb.buf_bytes 0 n
                 buf_bits := vset base.fb.buf_bits 0 bits, buf_len := 1 }

/-- EX1: an illegal word gives 0xFF, raises nothing and leaves the block as it was. -/
theorem test_illegal_word :
    stepShows (base.withFetchWord 32 0x0C000000) (fun t => (t.io.result, t.io.raised, t.fb, t.bs)) =
      some (0xFF#8, [], base.fb, base.bs) := by decide

/-- CO12: the word of `rd 0x00`, presented, is the next step's operation and gives 0x06. -/
theorem test_presented_word_runs :
    stepShows (base.withFetchWord 32 0x09000000) (fun t => t.io.result) = some 0x06#8 := by decide

/-- EN1. -/
theorem test_nop : shows .nop { base with io := { base.io with result := 7 } } (fun t => t.io.result) =
    some 0x00#8 := by decide

/-- CO2: before settling, a frame with a bad checksum is consumed with 0x03. -/
theorem test_pop_unsettled :
    shows .pop { base with fb := { oneFrame [0x10, 0x01, 0x00, 0x11] 4 25 with buf_len := 2 } }
      (fun t => (t.io.result, t.fb.buf_rd, t.out.settled)) = some (0x03#8, 1#4, false) := by decide

/-- CO4: at 3041 ms the bus seen at 40 ms is gone: 0x04, nothing drained. -/
theorem test_pop_disconnection :
    shows .pop { base with
        io := { base.io with now_ms := 3041 }
        bus := { t_gap := 40, gap_seen := true, connected := true, conn_chg := false }
        fb := oneFrame [0x10, 0x01, 0x00, 0x10] 4 25 }
      (fun t => (t.io.result, t.bus.connected, t.bus.conn_chg, t.fb.buf_len)) =
      some (0x04#8, false, true, 1#4) := by decide

/-- CO9: seven module bits are too few: 0x06, and the flag is taken. -/
theorem test_mread_short :
    shows .mread { base with out := { base.out with mod_capt := true, mod_bits := 7 } }
      (fun t => (t.io.result, t.out.mod_capt)) = some (0x06#8, false) := by decide

/-- CO9: after `wr 0x50, 0x20` a frame dispatched with code 0x05 is a query: 0x05. -/
theorem test_mread_query_response :
    shows .mread { memWrite base 0x50 0x20 with
        out := { base.out with mod_capt := true, mod_bits := 25, last_disp_cmd := 0x05 } }
      (fun t => t.io.result) = some 0x05#8 := by decide

/-- CO10: `[05 01 81 86]` is valid. -/
theorem test_crc_valid :
    shows .crc { base with out := { base.out with panel_data := frame [0x05, 0x01, 0x81, 0x86],
                                                  panel_bytes := 4 } }
      (fun t => (t.io.result, t.out.crc_ok)) = some (0x01#8, true) := by decide

/-- CO10: after reset the check fails. -/
theorem test_crc_after_reset : shows .crc base (fun t => t.io.result) = some 0x00#8 := by decide

/-- WE9d (gk): 'F' at 7 ms arms an alarm key. -/
theorem test_wkey_alarm :
    shows (.wkey 0x46) { base with io := { base.io with now_ms := 7 } }
      (fun t => (t.io.result, t.we.wr_state, t.we.wr_key, t.we.t_alarm)) =
      some (0x10#8, .armAlarm, 0xBB#8, 7#32) := by decide

/-- WE6 (gk): with a partition prefix pending, '*' is armed and the prefix dropped. -/
theorem test_wkey_asterisk :
    shows (.wkey 0x2A) { base with we := { base.we with part_prefix := true } }
      (fun t => (t.io.result, t.we.wr_state, t.we.wr_key, t.we.wr_ast, t.we.part_prefix)) =
      some (0x10#8, .armReg, 0x28#8, true, false) := by decide

/-- A queue holding "Z1", draining. -/
def draining : State :=
  { base with sq := { wstr_q := vset (vset base.sq.wstr_q 0 0x5A) 1 0x31, wstr_len := 2, wstr_cur := 0,
                      wstr_active := true } }

/-- R119. -/
theorem test_wstrClr :
    shows .wstrClr draining (fun t => (t.io.result, t.sq.wstr_len, t.sq.wstr_active)) =
      some (0x00#8, 0#6, false) := by decide

/-- WE17: the 33rd push is refused with 0x16. -/
theorem test_wstrPush_full :
    shows (.wstrPush 0x31) { base with sq := { base.sq with wstr_len := 32 } } (fun t => t.io.result) =
      some 0x16#8 := by decide

/-- WE17: a push appends with 0x10. -/
theorem test_wstrPush :
    shows (.wstrPush 0x31) draining (fun t => (t.io.result, t.sq.wstr_len, vget t.sq.wstr_q 2 0)) =
      some (0x10#8, 3#6, 0x31#8) := by decide

/-- R121. -/
theorem test_wstrGo :
    shows .wstrGo base (fun t => (t.io.result, t.sq.wstr_active)) = some (0x00#8, true) := by decide

/-- WE17: the drain step skips 'Z'. -/
theorem test_drain_skips_unknown :
    (wstrDrainStep draining).sq.wstr_cur = 1#6 ∧ (wstrDrainStep draining).we.wr_state = .idle := by decide

/-- CO11: `clr 0x01` clears `ovf` alone. -/
theorem test_clr_overflow :
    shows (.clr 0x01) { base with fb := { base.fb with ovf := true }
                                  bus := { base.bus with conn_chg := true } }
      (fun t => (t.fb.ovf, t.bus.conn_chg)) = some (false, true) := by decide

/-- CO11: `clr 0xFA` changes nothing. -/
theorem test_clr_other_bits :
    shows (.clr 0xFA) { base with fb := { base.fb with ovf := true }
                                  bus := { base.bus with conn_chg := true } }
      (fun t => (t.fb.ovf, t.bus.conn_chg)) = some (true, true) := by decide

/-- CO12: after reset `rd 0x01` gives 0x10. -/
theorem test_rd_status : shows (.rd 0x01) base (fun t => t.io.result) = some 0x10#8 := by decide

/-- CO12: `rd 0x90` gives 0x00. -/
theorem test_rd_reserved : shows (.rd 0x90) base (fun t => t.io.result) = some 0x00#8 := by decide

/-- CO12: `wr 0x00, 0xFF` leaves CTRL at 0x07. -/
theorem test_wr_ctrl : shows (.wr 0x00 0xFF) base (fun t => memRead t 0x00) = some 0x07#8 := by decide

/-- CO12: `wr 0x0B, 0x09` selects partition 1, `wr 0x0B, 0x08` partition 8. -/
theorem test_wr_partition :
    shows (.wr 0x0B 0x09) base (fun t => t.we.wr_part) = some 1#4 ∧
      shows (.wr 0x0B 0x08) base (fun t => t.we.wr_part) = some 8#4 := by decide

/-- RS1: RESET gives `rd 0x00` = 0x06 and zero at LINES. -/
theorem test_reset :
    shows .reset { draining with we := { base.we with wr_line := true } }
      (fun t => (t.io.result, memRead t 0x00, memRead t 0x81, t.sq.wstr_active)) =
      some (0x00#8, 0x06#8, 0x00#8, false) := by decide

/-- BS9: a rising edge at 1500 releases the write line and arms the timer. -/
theorem test_evRise :
    shows .evRise { base with we := { base.we with wr_line := true }
                              io := { base.io with now_us := 1500 } }
      (fun t => (t.we.wr_line, t.bs.t_rise, t.bs.tmr_armed, t.bs.tmr_t_arm)) =
      some (false, 1500#32, true, 1500#32) := by decide

/-- BS6: a fall at 6001 after a rise at 5000 measures 1001. -/
theorem test_evFall :
    shows .evFall { base with bs := { base.bs with t_rise := 5000 }
                              io := { base.io with now_us := 6001 } }
      (fun t => (t.bs.clk_high_time, t.bs.tmr_armed)) = some (1001#32, true) := by decide

/-- '5' armed for partition 1, eight bits of a status frame captured, the current byte and bit count T. -/
def armedAt (T : Byte) : State :=
  { base with
    we := { base.we with wr_state := .armReg, wr_key := 0x16, wr_byte := 2, wr_bit := 9 }
    bs := { base.bs with acc_p := frame [0x05, 0x01], p_byte_count := 2, p_bit_total := T } }

/-- WE11 (gk): the falling edge at T = 9 asserts the line for key bit 7 = 0. -/
theorem test_evFall_drives_the_line :
    shows .evFall (armedAt 9) (fun t => (t.we.wr_line, t.we.wr_state)) = some (true, .emitReg) := by decide

/-- The timer armed after a clock-high time of `high` microseconds. -/
def afterHigh (high : Word) : State :=
  { base with bs := { base.bs with tmr_armed := true, clk_high_time := high } }

/-- BS6: 1000 µs completes no frame, 1001 µs does. -/
theorem test_evTimer_gap :
    shows (.evTimer false true) (afterHigh 1000) (fun t => t.bus.gap_seen) = some false ∧
      shows (.evTimer false true) (afterHigh 1001) (fun t => t.bus.gap_seen) = some true := by decide

/-- BS2: the stop bit's level is discarded. -/
theorem test_evTimer_stop_bit :
    shows (.evTimer true false)
      { base with bs := { base.bs with tmr_armed := true, acc_p := frame [0x05], p_byte_count := 1,
                                       p_bit_total := 8 } }
      (fun t => (byteAt t.bs.acc_p 1, t.bs.p_byte_count, t.bs.p_bit_total)) =
      some (0x01#8, 2#5, 9#8) := by decide

/-! ## Witnesses: states and operands that meet the hypotheses of each statement -/

/-- DecodedWordIsItsEncoding; OperandsAreTheWordsFields, each clause, operands at both ends of their range. -/
theorem witness_decoded_words :
    decode 0x04000000#32 = .ok (.wkey 0x00#8) ∧ decode 0x0400FF00#32 = .ok (.wkey 0xFF#8) ∧
      decode 0x0600FF00#32 = .ok (.wstrPush 0xFF#8) ∧ decode 0x0800FF00#32 = .ok (.clr 0xFF#8) ∧
      decode 0x09FF0000#32 = .ok (.rd 0xFF#8) ∧ decode 0x0AFF0100#32 = .ok (.wr 0xFF#8 0x01#8) ∧
      decode 0x82010000#32 = .ok (.evTimer true false) := by
  refine ⟨?_, ?_, ?_, ?_, ?_, ?_, ?_⟩ <;> rfl

/-- OpcodeRowsDoNotOverlap: a word that selects a row of the table. -/
theorem witness_selected_row :
    ∃ r ∈ opcodeRows, ∃ q ∈ opcodeRows,
      r.selects 0x82010100#32 = true ∧ q.selects 0x82010100#32 = true := by decide

/-- POP presented on the host port. -/
def presented : Presented := ⟨.host, 0x01000000#32, 5000#32, 5#32⟩

/-- StepRunsTheDecodedOperation: an operation waits and decodes on its port; and none waits. -/
theorem witness_presented :
    ({ base with env := { pending := [presented], drawn := 0 } } : State).env.pending = presented :: [] ∧
      decodeAt presented.port presented.word = .ok .pop ∧ base.env.pending = [] :=
  ⟨rfl, rfl, rfl⟩

/-- IllegalWordChangesNothing: a reserved code, a nonzero RSV, and the other port's format. -/
theorem witness_illegal_words :
    (∀ r ∈ opcodeRows, r.port = .host → 0x0C000000#32 &&& r.maskBits ≠ r.matchBits) ∧
      (∀ r ∈ opcodeRows, r.port = .host → 0x01000001#32 &&& r.maskBits ≠ r.matchBits) ∧
      (∀ r ∈ opcodeRows, r.port = .bus → 0x01000000#32 &&& r.maskBits ≠ r.matchBits) := by decide

/-- The zero frame has a clear tail. -/
theorem zeroFrame_tailClear (n : Nat) : TailClear zeroFrame n := by
  intro i _
  unfold byteAt vget zeroFrame
  by_cases h : i < 16 <;> simp [h]

/-- The counters of the empty accumulators agree. -/
theorem base_samplerInv : SamplerInv base.bs := by
  refine ⟨?_, ?_⟩
  · exact Or.inl (by decide)
  · exact Or.inl (by decide)

/-- StepKeepsTheInvariant and NoStepWritesTheParameters: a state that meets the invariant, at the upper
ends of the WriteEngine's and the queue's ranges, and steps to a next state. -/
def ranged : State :=
  { base with we := { base.we with wr_part := 8, wr_state := .astHold, ast_skip := true }
              sq := { base.sq with wstr_len := 32, wstr_cur := 32 }
              fb := { base.fb with buf_len := 10, buf_rd := 9 } }

/-- StepKeepsTheInvariant: `ranged` meets it and steps. -/
theorem witness_invariant :
    ranged.Inv ∧ ∃ t, step (ranged.withFetchWord 32 0x01000000) = .next t := by
  refine ⟨⟨base_samplerInv, ⟨by decide, Or.inr (by decide), ?_⟩, by unfold OutputInv; decide,
    by unfold PresenceInv; decide, by unfold WriterInv; decide, by unfold QueueInv; decide, ?_⟩, _, rfl⟩
  · intro k
    show (vget (Vector.replicate 10 (0 : BitVec 5)) k 0).toNat ≤ 16
    unfold vget
    by_cases h : k < 10 <;> simp [h]
  · intro h
    exact absurd h (by decide)

/-- StepKeepsFramesClear: `ranged` has clear frames. -/
theorem witness_framesClear : ranged.FramesClear := by
  refine ⟨⟨zeroFrame_tailClear _, by decide⟩, ⟨zeroFrame_tailClear _, by decide⟩, ?_,
    zeroFrame_tailClear _, zeroFrame_tailClear _⟩
  intro k
  show TailClear (vget (Vector.replicate 10 zeroFrame) k zeroFrame) _
  have h : vget (Vector.replicate 10 zeroFrame) k zeroFrame = zeroFrame := by
    unfold vget
    by_cases h : k < 10 <;> simp [h]
  rw [h]
  exact zeroFrame_tailClear _

/-- NoStepWritesTheParameters: a step of `base`. -/
theorem witness_step : ∃ t, step (base.withFetchWord 32 0x0A000000) = .next t := ⟨_, rfl⟩

/-- BusEventsLeaveHostState: a bus event runs, with both sticky flags of its clauses set. -/
theorem witness_bus_event :
    let s := { afterHigh 1001 with fb := { base.fb with ovf := true }
                                   out := { base.out with mod_capt := true } }
    (Instr.evTimer false true).port = .bus ∧ (∃ t, exec (.evTimer false true) s = .next t) ∧
      s.fb.ovf = true ∧ s.out.mod_capt = true := ⟨rfl, ⟨_, rfl⟩, rfl, rfl⟩

/-- HostCommandsLeaveBusState: MREAD runs and leaves `mod_capt` false, CRC leaves a set `ovf` set. -/
theorem witness_host_command :
    Instr.crc.port = .host ∧ Instr.crc ≠ .reset ∧
      shows .crc { base with fb := { base.fb with ovf := true }
                             out := { base.out with mod_capt := true } }
        (fun t => (t.fb.ovf, t.out.mod_capt)) = some (true, true) := by decide

/-- StickyFlagsStayUntilCleared: CLR with each mask that spares each flag, all three flags set. -/
theorem witness_sticky :
    let s := { base with fb := { base.fb with ovf := true }, bus := { base.bus with conn_chg := true }
                         out := { base.out with settled := true } }
    (∀ m, Instr.clr 0xFE = .clr m → m.getLsbD 0 = false) ∧
      (∀ m, Instr.clr 0xFB = .clr m → m.getLsbD 2 = false) ∧
      (∃ t, exec (.clr 0xFE) s = .next t) ∧ (∃ t, exec (.clr 0xFB) s = .next t) ∧
      s.fb.ovf = true ∧ s.bus.conn_chg = true ∧ s.out.settled = true := by
  refine ⟨?_, ?_, ⟨_, rfl⟩, ⟨_, rfl⟩, rfl, rfl, rfl⟩
  · rintro _ ⟨⟩
    rfl
  · rintro _ ⟨⟩
    rfl

/-- OnlyFallingEdgesAssertTheLine: the line goes from released to asserted. -/
theorem witness_line_asserted :
    (armedAt 9).we.wr_line = false ∧ shows .evFall (armedAt 9) (fun t => t.we.wr_line) = some true := by
  decide

/-- WrWritesTheRegisterMap: the indices without effect, at the ends of their ranges. -/
theorem witness_unwritable_indices :
    ∀ r ∈ [0x01#8, 0x0A#8, 0x0C#8, 0x2F#8, 0x81#8, 0xFF#8],
      r ≠ 0x00 ∧ r ≠ 0x0B ∧ (r.toNat < 0x30 ∨ 0x80 < r.toNat) := by decide

/-- WrittenRegistersReadBack: the two ends of its range, and two distinct indices. -/
theorem witness_written_indices :
    (∀ r ∈ [0x30#8, 0x80#8], 0x30 ≤ r.toNat ∧ r.toNat ≤ 0x80) ∧ (0x70#8 : Byte) ≠ 0x78#8 := by decide

/-- RdReadsTheRegisterMap: the reserved indices at both ends. -/
theorem witness_reserved_indices : 0x85 ≤ (0x85#8).toNat ∧ 0x85 ≤ (0xFF#8).toNat := by decide

/-- TimerExpiry: unarmed; armed without a gap at 1000 µs; armed after one at 1001 µs. -/
theorem witness_timer :
    base.bs.tmr_armed = false ∧
      ((afterHigh 1000).bs.tmr_armed = true ∧
        ¬base.cfg.timing.t_gap_us.toNat < (afterHigh 1000).bs.clk_high_time.toNat) ∧
      ((afterHigh 1001).bs.tmr_armed = true ∧
        base.cfg.timing.t_gap_us.toNat < (afterHigh 1001).bs.clk_high_time.toNat) := by decide

/-- OnlyAGapOverOneMillisecondEndsAFrame: both steps go on, the gap at each side of its boundary. -/
theorem witness_gap (us : Word) :
    let s := { base with bs := { base.bs with t_rise := 5000 }, io := { base.io with now_us := us } }
    s.cfg.timing = Config.hardware.timing ∧ ∃ t u, exec .evFall s = .next t ∧ exec (.evTimer false true) (t.atTime 6251 6) = .next u :=
  ⟨rfl, _, _, rfl, rfl⟩

/-- OnlyAGapOverOneMillisecondEndsAFrame: a fall at 6001 is beyond the boundary, one at 6000 is on it. -/
theorem witness_gap_boundary :
    1000 < ((6001 : Word) - 5000).toNat ∧ ¬1000 < ((6000 : Word) - 5000).toNat := by decide

/-- StopBitAndStorageLimit: the stop position, and a full accumulator at 121 and at 255 bits. -/
theorem witness_stop_and_limit :
    let b := fun (B : BitVec 5) (T : Byte) => { base.bs with p_byte_count := B, p_bit_total := T }
    (b 1 8).p_bit_total = 8 ∧
      ((b 16 121).p_byte_count = 16 ∧ (b 16 121).p_bit_total ≠ 8) ∧
      ((b 16 255).p_byte_count = 16 ∧ (b 16 255).p_bit_total ≠ 8) := by decide

/-- PanelStreamAssemblesTheFrame: empty accumulators; eight bits; fourteen payload bytes, and thirteen with
seven bits of the next. -/
theorem witness_panel_stream :
    (base.bs.acc_p = zeroFrame ∧ base.bs.p_bit_total = 0 ∧ base.bs.p_bit_count = 0 ∧
      base.bs.p_byte_count = 0) ∧
      (msbFirst 0x05#8).length ≤ 8 ∧
      ((List.replicate 14 0xA5#8).length ≤ 14 ∧ ([] : List Bool).length < 8) ∧
      ((List.replicate 13 0xA5#8).length ≤ 14 ∧ (List.replicate 7 true).length < 8 ∧
        (List.replicate 13 0xA5#8).length ≠ 14) := by decide

/-- FA4: 13 bits, command 0x10, stop, then 1,0,1,0, leave `[10 01 0A]` with two bytes counted. -/
theorem test_panel_partial_byte :
    let e := (msbFirst 0x10#8 ++ [true, true, false, true, false]).foldl (fun b d => panelBit d b) base.bs
    byteAt e.acc_p 0 = 0x10#8 ∧ byteAt e.acc_p 1 = 0x01#8 ∧ byteAt e.acc_p 2 = 0x0A#8 ∧
      e.p_byte_count = 2#5 ∧ e.p_bit_total = 13#8 := by decide

/-- BS11: eight module levels 1,1,1,1,1,1,1,0 store 0x01, or 0xFE without the inversion; slot 1 is forced to
0x01 and the low level is detected. -/
theorem test_module_polarity :
    let run := fun p => [true, true, true, true, true, true, true, false].foldl
      (fun b d => moduleBit p true 0 d b) base.bs
    let e := run Params.testDefaults
    let plain := run { Params.testDefaults with module_bit_invert := false }
    (byteAt e.acc_m 0 = 0x01#8 ∧ byteAt e.acc_m 1 = 0x01#8 ∧ e.m_byte_count = 2#5 ∧ e.m_detect = true) ∧
      byteAt plain.acc_m 0 = 0xFE#8 ∧ plain.m_detect = true := by decide

/-- ModuleStreamAssemblesTheFrame: one frame buffered, fourteen payload bytes, empty accumulators. -/
theorem witness_module_stream :
    (1 : Nat) ≤ 1 ∧ (List.replicate 14 0xA5#8).length ≤ 14 ∧ base.bs.acc_m = zeroFrame ∧
      base.bs.m_bit_total = 0 ∧ base.bs.m_bit_count = 0 ∧ base.bs.m_byte_count = 0 := by decide

/-- ModuleGateDecidesCapture: the gate open at its boundary, and closed in each of its three ways. -/
theorem witness_module_gate :
    let full := { base.bs with m_byte_count := 16 }
    let last := { base.bs with m_byte_count := 15 }
    (true = true ∧ 1 ≤ 1 ∧ last.m_byte_count.toNat < 16) ∧
      ¬(false = true ∧ 1 ≤ 1 ∧ last.m_byte_count.toNat < 16) ∧
      ¬(true = true ∧ 2 ≤ 1 ∧ last.m_byte_count.toNat < 16) ∧
      ¬(true = true ∧ 1 ≤ 1 ∧ full.m_byte_count.toNat < 16) := by decide

/-- A state about to complete `l` with `bits` panel bits. -/
def completing (l : List Byte) (bits : Byte) : State :=
  { base with bs := { base.bs with acc_p := frame l, p_byte_count := 4, p_bit_total := bits } }

/-- The state with a valid cache A of frame `l`. -/
def cachedA (l : List Byte) (s : State) : State :=
  { s with rf := { s.rf with cacheA := ⟨true, frame l⟩ } }

/-- CompletionAdmitsFrames: seven bits are short; eight of a cached frame are redundant. -/
theorem witness_short_and_redundant :
    let s := cachedA [0x05] (completing [0x05] 8)
    (completing [0x10] 7).bs.p_bit_total.toNat < 8 ∧ 8 ≤ s.bs.p_bit_total.toNat ∧
      IsrRedundant s.cfg s.bs.acc_p s.rf := by
  refine ⟨by decide, by decide, Or.inl ⟨by decide, rfl, fun i _ => rfl⟩⟩

/-- CompletionAdmitsFrames: an unmonitored frame is not redundant, with ten frames held and with nine. -/
theorem witness_admitted :
    let s := completing [0x10] 8
    let ten := { s with fb := { s.fb with buf_len := 10 } }
    let nine := { s with fb := { s.fb with buf_len := 9 } }
    8 ≤ s.bs.p_bit_total.toNat ∧ ¬IsrRedundant s.cfg s.bs.acc_p s.rf ∧ ten.fb.buf_len = 10 ∧
      nine.fb.buf_len.toNat < 10 := by
  refine ⟨by decide, ?_, rfl, by decide⟩
  rintro (⟨h, -, -⟩ | ⟨-, h, -, -⟩)
  · exact absurd h (by decide)
  · exact absurd h (by decide)

/-- MonitoredFramesUpdateTheirCache: a frame of code A, one of code B, one of neither. -/
theorem witness_monitored :
    let p := Params.testDefaults
    8 ≤ (completing [0x05] 8).bs.p_bit_total.toNat ∧ byteAt (frame [0x05]) 0 = p.isr_code_a ∧
      (byteAt (frame [0x1B]) 0 ≠ p.isr_code_a ∧ byteAt (frame [0x1B]) 0 = p.isr_code_b) ∧
      (byteAt (frame [0x10]) 0 ≠ p.isr_code_a ∧ byteAt (frame [0x10]) 0 ≠ p.isr_code_b) := by decide

/-- The captured frame `[05 01 81 86]` of FA6. -/
def statusFrame : CapturedFrame := ⟨frame [0x05, 0x01, 0x81, 0x86], 4, 25⟩

/-- The captured frame `[1B 01 00 1B]` of FA7. -/
def groupFrame : CapturedFrame := ⟨frame [0x1B, 0x01, 0x00, 0x1B], 4, 25⟩

/-- OverflowedFrameIsStillRemembered: FA6 for each code, the buffer full and then emptied, the caches not yet
valid. -/
theorem witness_overflowed :
    let s := { base with fb := { base.fb with buf_len := 10 } }
    let u := fun f => { captureFrame s f with fb := base.fb }
    (8 ≤ statusFrame.bits.toNat ∧ byteAt statusFrame.data 0 = s.cfg.isr_code_a) ∧
      (8 ≤ groupFrame.bits.toNat ∧ byteAt groupFrame.data 0 = s.cfg.isr_code_b) ∧ s.fb.buf_len = 10 ∧
      (∀ f, (u f).cfg = s.cfg ∧ (u f).rf = (captureFrame s f).rf) ∧
      ∀ f : CapturedFrame, ¬IsrRedundant s.cfg f.data s.rf := by
  refine ⟨by decide, by decide, rfl, fun _ => ⟨rfl, rfl⟩, fun f => ?_⟩
  rintro (⟨-, h, -⟩ | ⟨-, -, h, -⟩) <;> cases h

/-- OverflowKeepsTheOldestTen: eleven unmonitored frames of eight bits (the shortest) at an empty buffer. -/
theorem witness_eleven_frames :
    let f : CapturedFrame := ⟨frame [0x10], 1, 8⟩
    base.fb.buf_len = 0 ∧ ∀ g ∈ List.replicate 11 f, 8 ≤ g.bits.toNat ∧
      byteAt g.data 0 ≠ base.cfg.isr_code_a ∧ byteAt g.data 0 ≠ base.cfg.isr_code_b := by
  refine ⟨rfl, fun g h => ?_⟩
  rw [List.eq_of_mem_replicate h]
  decide

/-- RedundancyIsIdempotent: an invalid cache, and two frames that differ in the last compared byte only. -/
theorem witness_idempotent :
    emptyCache.valid = false ∧ ∃ i < min 3 16,
      byteAt (frame [0x10, 0x01, 0x00]) i ≠ byteAt (frame [0x10, 0x01, 0x01]) i := by decide

/-- ChecksumRoundTrip: CR1 with byte 0 flipped, at n = 4, neither command exempt; and the ends of n. -/
theorem witness_checksum :
    let f := frame [0x05, 0x01, 0x81, 0x86]
    let e := base.ctl.crc_exempt
    3 ≤ 4 ∧ 4 ≤ 16 ∧ 0 < 4 - 1 ∧ 0x04#8 ≠ byteAt f 0 ∧ tableBit e (byteAt f 0) = false ∧
      tableBit e (byteAt (setByte f 0 0x04) 0) = false ∧ crcValid e f 4 = true := by decide

/-- The two states POP tests: after the drain step, and its presence update. -/
def popDrained (s : State) : State := wstrDrainStep { s with io := { s.io with raised := [] } }

/-- The presence after POP's update. -/
def popPresence (s : State) : Presence :=
  presenceUpdate s.cfg.timing.t_bus_ms s.io.now_ms (popDrained s).bus

/-- A bus seen at 40 ms, connected. -/
def connectedAt40 : Presence := ⟨40, true, true, false⟩

/-- A machine at `now` on a bus seen at 40 ms, with one buffered frame. -/
def holding (now : Word) (l : List Byte) : State :=
  { base with io := { base.io with now_ms := now }, bus := connectedAt40, fb := oneFrame l 4 25 }

/-- PopFollowsItsRule, its first two ends: a fresh disconnection at 3041 ms; an empty buffer at 3040 ms. -/
theorem witness_pop_early :
    let gone := holding 3041 [0x10]
    let empty := { holding 3040 [] with fb := base.fb }
    ((popDrained gone).bus.connected = true ∧ (popPresence gone).connected = false) ∧
      ¬((popDrained empty).bus.connected = true ∧ (popPresence empty).connected = false) ∧
      (popDrained empty).fb.buf_len = 0 := by decide

/-- PopFollowsItsRule: a bad frame before settling; a good one before settling, shown; a bad one after it. -/
theorem witness_pop_frame :
    let ok := fun s : State => crcValid (popDrained s).ctl.crc_exempt
      (vget (popDrained s).fb.buf_data 0 zeroFrame) (vget (popDrained s).fb.buf_bytes 0 0).toNat
    let bad := holding 3040 [0x10, 0x01, 0x00, 0x11]
    let good := holding 3040 [0x10, 0x01, 0x00, 0x10]
    let late := { bad with out := { bad.out with settled := true } }
    (∀ s ∈ [bad, good, late], ¬((popDrained s).bus.connected = true ∧ (popPresence s).connected = false) ∧
        (popDrained s).fb.buf_len ≠ 0 ∧ (popDrained s).fb.buf_rd = 0) ∧
      ((popDrained bad).out.settled = false ∧ ok bad = false) ∧
      (ok good = true ∧ (popDrained good).ctl.proc_red = true) ∧
      ((popDrained late).out.settled = true ∧ (popDrained late).ctl.proc_red = true) := by decide

/-- PopFollowsItsRule, its last end, all premises at one state: a good frame that entry 0 of the consumer
filter takes, redundant frames not shown. -/
theorem witness_pop_filter :
    let s := memWrite (memWrite (memWrite (holding 3040 [0x10, 0x01, 0x00, 0x10])
      0x00 0x04) 0x70 0x10) 0x80 0x01
    let d := popDrained s
    ¬(d.bus.connected = true ∧ (popPresence s).connected = false) ∧ d.fb.buf_len ≠ 0 ∧
      d.fb.buf_rd = 0 ∧
      crcValid d.ctl.crc_exempt (vget d.fb.buf_data 0 zeroFrame) (vget d.fb.buf_bytes 0 0).toNat = true ∧
      d.ctl.proc_red = false ∧ ccMatch d.rf (byteAt (vget d.fb.buf_data 0 zeroFrame) 0) = some 0 := by
  decide

/-- PopDeliversFramesInArrivalOrder: ten frames buffered, settled and connected at the timeout's edge. -/
theorem witness_pop_order :
    let s := { base with fb := { base.fb with buf_len := 10 }, out := { base.out with settled := true }
                         bus := { t_gap := 40, gap_seen := true, connected := true, conn_chg := false }
                         io := { base.io with now_ms := 3040 } }
    s.fb.buf_len.toNat = 10 ∧ 10 ≤ 10 ∧ s.fb.buf_rd = 0 ∧ s.sq.wstr_active = false ∧
      s.out.settled = true ∧ s.ctl.proc_red = true ∧ s.bus.connected = true ∧ s.bus.gap_seen = true ∧
      (s.io.now_ms - s.bus.t_gap).toNat ≤ s.cfg.timing.t_bus_ms.toNat := by decide

/-- WkeySubmitsTheKey and StringDrainStep, the clauses of `SubmitSays`: no key, an alarm key, a regular key;
the debounce at 499 and 500 ms; a digit at both ends after a prefix. -/
theorem witness_submit :
    let p := Params.testDefaults
    keyOf p 0x5A = none ∧ (keyOf p 0x46).map (·.alarm) = some true ∧
      (keyOf p 0x31).map (·.alarm) = some false ∧ ((599 : Word) - 100).toNat < p.timing.t_alarm_ms.toNat ∧
      p.timing.t_alarm_ms.toNat ≤ ((600 : Word) - 100).toNat ∧ (0x30 ≤ (0x30#8).toNat ∧ (0x39#8).toNat ≤ 0x39) ∧
      0x2A ≠ 0x2F := by decide

/-- PartitionTargets: both ends of the partitions. -/
theorem witness_partitions : (1 ≤ (1#4).toNat ∧ (1#4).toNat ≤ 8) ∧ (1 ≤ (8#4).toNat ∧ (8#4).toNat ≤ 8) := by
  decide

/-- RegularKeyBitMapping: '5' armed for partition 1, or cut short in EMIT_REG, byte 2 throughout its
window. -/
theorem witness_regular_window :
    let w := (armedAt 9).we
    let cut : WriteEngine := { w with wr_state := .emitReg }
    w.wr_state = .armReg ∧ cut.wr_state = .emitReg ∧ 8 ≤ w.wr_bit.toNat ∧
      ∀ T, w.wr_bit.toNat ≤ T → T ≤ w.wr_bit.toNat + 7 → (fun _ => 2#5) T = w.wr_byte :=
  ⟨rfl, rfl, by decide, fun _ _ _ => rfl⟩

/-- WE14 (gk): an emission cut short restarts with key bit 7 at T = 9 of the next matching frame. -/
theorem test_regular_restart :
    let w : WriteEngine := { (armedAt 9).we with wr_state := .emitReg }
    let e := writeStep Params.testDefaults 9 2 0x05 w
    e.wr_line = true ∧ e.wr_state = .emitReg := by decide

/-- RegularKeyWaitsForItsFrame: both states it names, a frame of another command, a byte counter that never
meets the target, and a key armed for bit position 7. -/
theorem witness_waiting :
    let w := (armedAt 9).we
    w.wr_state = .armReg ∧ ({ w with wr_state := .emitReg } : WriteEngine).wr_state = .emitReg ∧
      (0x10#8 : Byte) ≠ statusCmd Params.testDefaults w.wr_group ∧
      ({ w with wr_bit := 7 } : WriteEngine).wr_bit.toNat < 8 ∧
      ∀ T : Nat, (fun _ => 3#5) T ≠ w.wr_byte :=
  ⟨rfl, rfl, by decide, by decide, fun _ => show 3#5 ≠ 2#5 by decide⟩

/-- AlarmKeyIsSentTwice: each of the four states it starts from. -/
theorem witness_alarm :
    let w := armAlarmKey 7 0xBB base.we
    let at' := fun st => ({ w with wr_state := st } : WriteEngine)
    w.wr_state = .armAlarm ∧ (at' .emitAlarm).wr_state = .emitAlarm ∧
      ((at' .repeatArmed).wr_state = .repeatArmed ∧ (at' .repeatArmed).wr_key = w.wr_key) ∧
      ((at' .emitRepeat).wr_state = .emitRepeat ∧ (at' .emitRepeat).wr_key = w.wr_key) := by decide

/-- WE13: an alarm emission cut short restarts with key bit 7 at T = 1 of the next frame. -/
theorem test_alarm_restart :
    let w := { armAlarmKey 7 0x3B base.we with wr_state := .emitAlarm }
    let e := writeStep Params.testDefaults 1 0 0x10 w
    e.wr_line = true ∧ e.wr_state = .emitAlarm := by decide

/-- The one-step clauses of RegularKeyBitMapping and RegularKeyWaitsForItsFrame: the gate open at the first,
an inner and the last position and just past it; the gate closed at 7. -/
theorem witness_regular_positions :
    let w := (armedAt 9).we
    let b := w.wr_bit.toNat
    (8 ≤ 9 ∧ 0x05#8 = statusCmd Params.testDefaults w.wr_group ∧ 2#5 = w.wr_byte) ∧ 9 = b ∧
      (b < 10 ∧ 15 < b + 7) ∧ 16 = b + 7 ∧ (b + 7 < 17 ∧ 8 < b) ∧ 10 ≠ b ∧ 7 < 8 := by decide

/-- WE14 (gk): at the stale position 12 an emission cut short goes on with key bit 4 = 1, asserting nothing;
a key only armed does not start there. -/
theorem test_regular_stale_position :
    let w := (armedAt 9).we
    let cut : WriteEngine := { w with wr_state := .emitReg }
    writeStep Params.testDefaults 12 2 0x05 cut = cut ∧ writeStep Params.testDefaults 12 2 0x05 w = w := by
  decide

/-- WE13: at the stale position 5 an alarm emission cut short goes on with key bit 3. -/
theorem test_alarm_stale_position :
    let w := { armAlarmKey 7 0xB3 base.we with wr_state := .emitAlarm }
    (writeStep Params.testDefaults 5 0 0x10 w).wr_line = true ∧
      (writeStep Params.testDefaults 5 0 0x10 w).wr_state = .emitAlarm := by decide

/-- R113: in the hold, as in IDLE, no falling edge changes the engine, at T = 1 or at `wr_bit`. -/
theorem test_no_emission_at_rest :
    let h : WriteEngine := { (armedAt 9).we with wr_state := .astHold }
    let i : WriteEngine := { (armedAt 9).we with wr_state := .idle }
    writeStep Params.testDefaults 1 2 0x05 h = h ∧ writeStep Params.testDefaults 9 2 0x05 h = h ∧
      writeStep Params.testDefaults 1 2 0x05 i = i ∧ writeStep Params.testDefaults 9 2 0x05 i = i := by
  decide

/-- A machine in the hold, the skip flag as given, completing a frame of command `c`. -/
def held (skip : Bool) (c bits : Byte) : State :=
  { completing [c] bits with we := { base.we with wr_state := .astHold, ast_skip := skip } }

/-- HoldIsReleasedByALaterStatusFrame: out of the hold; the hold with and without the skip; a status frame of
eight bits, one of seven, and one of another command. -/
theorem witness_hold :
    let status := fun s : State => 8 ≤ s.bs.p_bit_total.toNat ∧
      byteAt s.bs.acc_p 0 = statusCmd s.cfg s.we.wr_group
    base.we.wr_state ≠ .astHold ∧ base.ctl.wr_en = true ∧
      ((held true 0x05 8).we.wr_state = .astHold ∧ (held true 0x05 8).we.ast_skip = true) ∧
      (held false 0x05 8).we.ast_skip = false ∧ status (held false 0x05 8) ∧
      ¬status (held false 0x05 7) ∧ ¬status (held false 0x10 8) := by decide

/-- WE15: the completion of a later status frame frees the engine; R149: with `wr_en` = 0 it stays held. -/
theorem test_hold :
    (complete (held false 0x05 8)).we.wr_state = .idle ∧
      (complete (memWrite (held false 0x05 8) 0x00 0x02)).we.wr_state = .astHold := by decide

/-- StringDrainStep: inactive; the terminator at the end of the queue; a character to submit. -/
theorem witness_drain :
    base.sq.wstr_active = false ∧
      (draining.sq.wstr_active = true ∧ draining.we.wr_state = .idle) ∧
      ({ draining.sq with wstr_cur := 2 } : StringQueue).wstr_len ≤ 2 ∧
      ¬(draining.sq.wstr_len ≤ draining.sq.wstr_cur ∨
        vget draining.sq.wstr_q draining.sq.wstr_cur.toNat 0 = 0x00#8) := by decide

/-- DisabledKeypadIsFrozen: each of its clauses with `wr_en` = 0: a completion in the hold, EV_RISE, WR to
WR_PART, WKEY, WSTR_PUSH, and POP with a string under way. -/
theorem witness_disabled :
    let off := memWrite base 0x00 0x02
    let hold := memWrite { held false 0x05 8 with bs := { (held false 0x05 8).bs with
      tmr_armed := true, clk_high_time := 1001 } } 0x00 0x02
    let string := memWrite draining 0x00 0x02
    (off.ctl.wr_en = false ∧ hold.ctl.wr_en = false ∧ string.ctl.wr_en = false) ∧
      (∃ t, exec (.evTimer false true) hold = .next t) ∧ (∃ t, exec .evRise off = .next t) ∧
      (∃ t, exec (.wr 0x0B 3) off = .next t) ∧ (∃ t, exec (.wkey 0x31) off = .next t) ∧
      (∃ t, exec (.wstrPush 0x31) off = .next t) ∧ (∃ t, exec .pop string = .next t) ∧
      string.sq.wstr_active = true ∧ string.we.wr_state = .idle :=
  ⟨by decide, ⟨_, rfl⟩, ⟨_, rfl⟩, ⟨_, rfl⟩, ⟨_, rfl⟩, ⟨_, rfl⟩, ⟨_, rfl⟩, by decide, by decide⟩

end Sys2Proof.Tests
end

section
/-! SUPPORT. What a step does with the operation it takes: the first one waiting, else the environment's
next draw (R6, R11), and the proof of O7 that rests on it. -/

namespace Sys2Proof.Machine

/-! ## takePresented, by what waits -/

theorem takePresented_of_pending_cons {s : State} {p : Presented} {rest : List Presented}
    (h : s.env.pending = p :: rest) :
    takePresented s = (p, { s with env := { s.env with pending := rest } }) := by
  simp only [takePresented, h]

theorem takePresented_of_pending_nil {s : State} (h : s.env.pending = []) :
    takePresented s = (Config.environment s.env.drawn,
      { s with env := { pending := [], drawn := s.env.drawn + 1 } }) := by
  simp only [takePresented, h]

/-! ## runPresented, on a word that decodes on its port -/

theorem runPresented_of_decodeAt_ok {p : Presented} {i : Instr} (h : decodeAt p.port p.word = .ok i)
    (s : State) : runPresented p s = exec i (latchInputs p s) := by
  simp only [runPresented, h]

/-! ## step, by what waits -/

theorem step_of_pending_cons {s : State} {p : Presented} {rest : List Presented}
    (h : s.env.pending = p :: rest) :
    step s = runPresented p { s with env := { s.env with pending := rest } } := by
  rw [step, takePresented_of_pending_cons h]

theorem step_of_pending_nil {s : State} (h : s.env.pending = []) :
    step s = runPresented (Config.environment s.env.drawn)
      { s with env := { pending := [], drawn := s.env.drawn + 1 } } := by
  rw [step, takePresented_of_pending_nil h]

/-- A free draw is the same as that draw waiting alone: the two readings of a presentation agree (log 2). -/
theorem step_eq_step_of_draw_waiting {s : State} (h : s.env.pending = []) :
    step s = step { s with env :=
      { pending := [Config.environment s.env.drawn], drawn := s.env.drawn + 1 } } := by
  rw [step_of_pending_nil h, step_of_pending_cons rfl]

/-- Settles O7: the first waiting operation is taken, latched and run; with none waiting, the draw is. -/
theorem stepRunsTheDecodedOperation : Obligations.StepRunsTheDecodedOperation := by
  refine ⟨fun s p rest i hpending hdecode => ?_, fun s hnone => step_eq_step_of_draw_waiting hnone⟩
  rw [step_of_pending_cons hpending, runPresented_of_decodeAt_ok hdecode, latchInputs]

end Sys2Proof.Machine
end

section
/-! SUPPORT. Who owns which state (10_state.md section 8, R35): the host's part and the bus's part of the
machine, each kept by the other side's operations, and the proofs of O14, O15 and O16 that rest on it. -/

namespace Sys2Proof.Machine

/-! ## The two parts of the state (R35) -/

/-- The host's part of the machine: what no bus event may write, every other element at its reset value. -/
def hostPart (s : State) : State :=
  { powerUp s.cfg with
    ctl := s.ctl
    sq := s.sq
    fb := { (powerUp s.cfg).fb with buf_rd := s.fb.buf_rd }
    bus := { s.bus with t_gap := 0, gap_seen := false }
    out := { s.out with mod_data := zeroFrame, mod_bytes := 0, mod_bits := 0, mod_capt := false }
    rf := { s.rf with cacheA := emptyCache, cacheB := emptyCache }
    we := { s.we with wr_state := .idle, ast_skip := false, wr_line := false } }

/-- The bus's part of the machine: what no host command but RESET may write, every other element at its
reset value. -/
def busPart (s : State) : State :=
  { powerUp s.cfg with
    bs := s.bs
    fb := { s.fb with buf_len := 0, buf_rd := 0, ovf := false }
    bus := { s.bus with connected := false, conn_chg := false }
    rf := { (powerUp s.cfg).rf with cacheA := s.rf.cacheA, cacheB := s.rf.cacheB }
    out := { (powerUp s.cfg).out with
      mod_data := s.out.mod_data, mod_bytes := s.out.mod_bytes, mod_bits := s.out.mod_bits }
    we := { (powerUp s.cfg).we with ast_skip := s.we.ast_skip, wr_line := s.we.wr_line } }

/-- What a bus event keeps: the host's part; `ovf` and `mod_capt` it may set but not clear. -/
structure BusEventKeeps (s t : State) : Prop where
  part : hostPart t = hostPart s
  ovf : s.fb.ovf = true → t.fb.ovf = true
  mod_capt : s.out.mod_capt = true → t.out.mod_capt = true

/-- What a host command other than RESET keeps: the bus's part; it may empty but not extend the buffer, and
clear but not set `ovf` and `mod_capt`. -/
structure HostCommandKeeps (s t : State) : Prop where
  part : busPart t = busPart s
  buf_len : t.fb.buf_len = s.fb.buf_len ∨ t.fb.buf_len = 0
  ovf : t.fb.ovf = true → s.fb.ovf = true
  mod_capt : t.out.mod_capt = true → s.out.mod_capt = true

/-- The flags that only CLR and RESET lower stand (R33, R99). -/
structure StickyKept (s t : State) : Prop where
  ovf : s.fb.ovf = true → t.fb.ovf = true
  conn_chg : s.bus.conn_chg = true → t.bus.conn_chg = true
  settled : s.out.settled = true → t.out.settled = true

/-- What a host command other than CLR and RESET keeps. -/
structure HostStepKeeps (s t : State) : Prop where
  command : HostCommandKeeps s t
  sticky : StickyKept s t

/-! ## The relations compose -/

theorem BusEventKeeps.trans {s t u : State} (h : BusEventKeeps s t) (g : BusEventKeeps t u) :
    BusEventKeeps s u :=
  ⟨g.part.trans h.part, g.ovf ∘ h.ovf, g.mod_capt ∘ h.mod_capt⟩

/-- A bus event lowers no sticky flag: `conn_chg` and `settled` are the host's. -/
theorem BusEventKeeps.sticky {s t : State} (h : BusEventKeeps s t) : StickyKept s t :=
  ⟨h.ovf, (congrArg (·.bus.conn_chg) h.part).trans, (congrArg (·.out.settled) h.part).trans⟩

theorem HostCommandKeeps.trans {s t u : State} (h : HostCommandKeeps s t)
    (g : HostCommandKeeps t u) : HostCommandKeeps s u where
  part := g.part.trans h.part
  buf_len := g.buf_len.elim (fun e => h.buf_len.imp e.trans e.trans) .inr
  ovf := h.ovf ∘ g.ovf
  mod_capt := h.mod_capt ∘ g.mod_capt

theorem StickyKept.trans {s t u : State} (h : StickyKept s t) (g : StickyKept t u) :
    StickyKept s u :=
  ⟨g.ovf ∘ h.ovf, g.conn_chg ∘ h.conn_chg, g.settled ∘ h.settled⟩

theorem HostStepKeeps.trans {s t u : State} (h : HostStepKeeps s t) (g : HostStepKeeps t u) :
    HostStepKeeps s u :=
  ⟨h.command.trans g.command, h.sticky.trans g.sticky⟩

/-- A change that leaves the bus's part, the buffer, the presence and the output alone. -/
theorem HostStepKeeps.of_part {s t : State} (part : busPart t = busPart s) (fb : t.fb = s.fb)
    (bus : t.bus = s.bus) (out : t.out = s.out) : HostStepKeeps s t := by
  refine ⟨⟨part, .inl ?_, ?_, ?_⟩, ⟨?_, ?_, ?_⟩⟩ <;> simp [fb, bus, out]

theorem HostStepKeeps.refl (s : State) : HostStepKeeps s s := .of_part rfl rfl rfl rfl

/-! ## Bus events -/

/-- Admission writes the two caches of the interrupt path alone. -/
theorem admitFrame_frame (p : Params) (b : BitSampler) (f : FilterState) :
    ∃ A B, (admitFrame p b f).2 = { f with cacheA := A, cacheB := B } := by
  rcases admit_cases p b f with ⟨-, h⟩ | ⟨-, -, h⟩ | ⟨-, -, -, h⟩ | ⟨-, -, -, h⟩ <;> rw [h]
  · exact ⟨f.cacheA, f.cacheB, rfl⟩
  · exact ⟨_, f.cacheB, rfl⟩
  · exact ⟨f.cacheA, _, rfl⟩
  · exact ⟨f.cacheA, f.cacheB, rfl⟩

/-- The hold release writes the engine's state and its skip flag alone. -/
theorem holdRelease_frame (p : Params) (en has : Bool) (cmd : Byte) (w : WriteEngine) :
    ∃ st skip, holdRelease p en has cmd w = { w with wr_state := st, ast_skip := skip } := by
  rcases holdRelease_cases p en has cmd w with h | ⟨-, -, -, h⟩ | ⟨-, -, -, -, -, h⟩ <;> rw [h]
  · exact ⟨w.wr_state, w.ast_skip, rfl⟩
  · exact ⟨w.wr_state, _, rfl⟩
  · exact ⟨_, w.ast_skip, rfl⟩

/-- The write emission of a falling edge writes the engine's state, line and skip flag alone. -/
theorem emitOnFall_frame (s : State) :
    ∃ st line skip, emitOnFall s =
      { s.we with wr_state := st, wr_line := line, ast_skip := skip } := by
  unfold emitOnFall
  split
  · exact writeStep_frame ..
  · exact ⟨s.we.wr_state, s.we.wr_line, s.we.ast_skip, rfl⟩

theorem bufferAfter_buf_rd (a : Admission) (b : BitSampler) (fb : FrameBuffer) :
    (bufferAfter a b fb).buf_rd = fb.buf_rd := by
  rcases bufferAfter_cases a b fb with ⟨-, h⟩ | ⟨-, -, h⟩ | ⟨-, -, h⟩ <;> rw [h]

theorem bufferAfter_ovf_of_ovf (a : Admission) (b : BitSampler) {fb : FrameBuffer}
    (hovf : fb.ovf = true) : (bufferAfter a b fb).ovf = true := by
  rcases bufferAfter_cases a b fb with ⟨-, h⟩ | ⟨-, -, h⟩ | ⟨-, -, h⟩ <;> simp [h, hovf]

/-- The module latch writes the module output alone, and never clears its flag. -/
theorem latchModule_frame (en : Bool) (b : BitSampler) (o : OutputState) :
    ∃ data n bits capt, (o.mod_capt = true → capt = true) ∧ latchModule en b o =
      { o with mod_data := data, mod_bytes := n, mod_bits := bits, mod_capt := capt } := by
  unfold latchModule
  split
  · exact ⟨_, _, _, true, fun _ => rfl, rfl⟩
  · exact ⟨o.mod_data, o.mod_bytes, o.mod_bits, o.mod_capt, id, rfl⟩

theorem complete_keeps (s : State) : BusEventKeeps s (complete s) := by
  obtain ⟨A, B, hrf⟩ := admitFrame_frame s.cfg s.bs s.rf
  obtain ⟨st, skip, hwe⟩ := holdRelease_frame s.cfg s.ctl.wr_en (hasCmd s.bs) (byteAt s.bs.acc_p 0) s.we
  obtain ⟨data, n, bits, capt, hcapt, hout⟩ := latchModule_frame s.ctl.mod_en s.bs s.out
  refine ⟨?_, bufferAfter_ovf_of_ovf _ _, fun h => ?_⟩
  · simp [hostPart, hrf, hwe, hout, bufferAfter_buf_rd]
  · simp [hout, hcapt h]

/-- A change of the BitSampler alone. -/
theorem BusEventKeeps.of_bs (b : BitSampler) (s : State) : BusEventKeeps s { s with bs := b } :=
  ⟨rfl, id, id⟩

theorem timerExpiry_keeps (clk data : Bool) (s : State) :
    BusEventKeeps s (timerExpiry clk data s) := by
  rcases timerExpiry_cases clk data s with ⟨-, h⟩ | ⟨-, -, h⟩ | ⟨-, -, -, h⟩ | ⟨-, -, -, h⟩ <;> rw [h]
  · exact .of_bs s.bs s
  · exact (BusEventKeeps.of_bs _ s).trans (.of_bs _ _)
  · exact ((BusEventKeeps.of_bs _ s).trans (complete_keeps _)).trans (.of_bs _ _)
  · exact (BusEventKeeps.of_bs _ s).trans (.of_bs _ _)

/-- The start and the end of an operation write the step's outputs alone. -/
theorem BusEventKeeps.of_conclude {s t : State} {r : State × Byte}
    (h : BusEventKeeps (beginStep s) r.1) (hnext : conclude r = .next t) : BusEventKeeps s t := by
  have hbegin : BusEventKeeps s (beginStep s) := ⟨rfl, id, id⟩
  rw [conclude_next hnext]
  exact (hbegin.trans h).trans ⟨rfl, id, id⟩

theorem exec_bus_keeps {i : Instr} {s t : State} (hport : i.port = .bus)
    (hnext : exec i s = .next t) : BusEventKeeps s t := by
  cases i with
  | evRise => exact .of_conclude ⟨rfl, id, id⟩ hnext
  | evFall =>
    obtain ⟨st, line, skip, hwe⟩ := emitOnFall_frame s
    exact .of_conclude ⟨by simp [hostPart, hwe], id, id⟩ hnext
  | evTimer clk data => exact .of_conclude (timerExpiry_keeps clk data (beginStep s)) hnext
  | _ => cases hport

/-- Settles O14: the host's part is kept whole, so each of its elements is. -/
theorem busEventsLeaveHostState : Obligations.BusEventsLeaveHostState := by
  intro i s t hport hnext
  obtain ⟨hpart, hovf, hcapt⟩ := exec_bus_keeps hport hnext
  simp only [hostPart, State.mk.injEq, FrameBuffer.mk.injEq, Presence.mk.injEq, OutputState.mk.injEq,
    FilterState.mk.injEq, WriteEngine.mk.injEq] at hpart
  tauto

/-! ## Host commands: the WriteEngine and the string queue -/

/-- `Submit(c)` neither drives the line nor marks a frame to be skipped: those are the bus's (R35). -/
theorem submit_line_skip (p : Params) (en : Bool) (now : Word) (c : Byte) (w : WriteEngine) :
    (submit p en now c w).1.wr_line = w.wr_line ∧ (submit p en now c w).1.ast_skip = w.ast_skip := by
  rcases submit_cases p en now c w with ⟨b, h⟩ | ⟨b, n, h⟩ | ⟨b, code, -, -, h⟩ | ⟨b, code, -, -, h⟩ <;>
    rw [h] <;> exact ⟨rfl, rfl⟩

theorem submitChar_keeps (c : Byte) (s : State) : HostStepKeeps s (submitChar c s).1 := by
  obtain ⟨hline, hskip⟩ := submit_line_skip s.cfg s.ctl.wr_en s.io.now_ms c s.we
  exact .of_part (by simp [busPart, hline, hskip]) (by simp) (by simp) (by simp)

theorem wstrDrainStep_keeps (s : State) : HostStepKeeps s (wstrDrainStep s) := by
  rcases wstrDrainStep_cases s with ⟨-, h⟩ | ⟨-, -, -, h⟩ | ⟨-, -, -, h⟩ <;> rw [h]
  · exact .refl s
  · exact .of_part rfl rfl rfl rfl
  · exact (submitChar_keeps _ s).trans (.of_part rfl rfl rfl rfl)

theorem pushChar_keeps (c : Byte) (s : State) : HostStepKeeps s (pushChar c s).1 := by
  unfold pushChar
  split
  · exact .refl s
  · split
    · exact .refl s
    · exact .of_part rfl rfl rfl rfl

/-! ## Host commands: the consumer -/

theorem memWrite_keeps (s : State) (r v : Byte) : HostStepKeeps s (memWrite s r v) := by
  rcases memWrite_cases s r v with ⟨-, h⟩ | ⟨-, h⟩ | ⟨_, h⟩ | ⟨_, h⟩ | ⟨_, h⟩ | ⟨_, h⟩ | h <;> rw [h] <;>
    exact .of_part rfl rfl rfl rfl

theorem raise_keeps (c : Condition) (s : State) : HostStepKeeps s (raise c s) :=
  .of_part rfl rfl rfl rfl

/-- The presence update writes the connected state, and never lowers its changed-flag. -/
theorem presenceUpdate_keeps (limit now : Word) (s : State) :
    HostStepKeeps s { s with bus := presenceUpdate limit now s.bus } := by
  rcases presenceUpdate_cases limit now s.bus with ⟨-, h⟩ | ⟨-, h⟩ <;> rw [h]
  · exact .refl s
  · exact ⟨⟨rfl, .inl rfl, id, id⟩, ⟨id, fun _ => rfl, id⟩⟩

/-- The drain of a slot writes the panel output and moves the read index, or empties the buffer. -/
theorem drainSlot_keeps (s : State) : HostStepKeeps s (drainSlot s) := by
  unfold drainSlot
  rcases advanceRead_cases s.fb with ⟨-, h⟩ | ⟨-, h⟩ <;> rw [h]
  · exact ⟨⟨rfl, .inr rfl, id, id⟩, ⟨id, id, id⟩⟩
  · exact ⟨⟨rfl, .inl rfl, id, id⟩, ⟨id, id, id⟩⟩

theorem checkPanel_keeps (s : State) : HostStepKeeps s (checkPanel s) := by
  refine ⟨⟨?_, .inl ?_, ?_, ?_⟩, ⟨?_, ?_, ?_⟩⟩ <;> simp [busPart]

theorem acceptPanel_keeps (s : State) : HostStepKeeps s (acceptPanel s).1 :=
  ⟨⟨rfl, .inl rfl, id, id⟩, ⟨id, id, id⟩⟩

/-- The consumer-path filter writes its own entries alone. -/
theorem consumerFilter_frame (frame : Frame) (f : FilterState) :
    ∃ cc, (consumerFilter frame f).2 = { f with cc := cc } := by
  unfold consumerFilter
  split
  · exact ⟨f.cc, rfl⟩
  · exact ⟨_, rfl⟩

theorem filterPanel_keeps (s : State) : HostStepKeeps s (filterPanel s).1 := by
  obtain ⟨cc, hcc⟩ := consumerFilter_frame s.out.panel_data s.rf
  have hfilter : HostStepKeeps s { s with rf := (consumerFilter s.out.panel_data s.rf).2 } := by
    rw [hcc]; exact .of_part rfl rfl rfl rfl
  unfold filterPanel
  split
  · exact acceptPanel_keeps s
  · dsimp only
    split
    · exact hfilter.trans (raise_keeps _ _)
    · exact hfilter.trans (acceptPanel_keeps _)

/-- Settling raises `settled` and never lowers it. -/
theorem settlePanel_keeps (s : State) : HostStepKeeps s (settlePanel s).1 := by
  have hsettle : HostStepKeeps s { s with out := { s.out with settled := true } } :=
    ⟨⟨rfl, .inl rfl, id, id⟩, ⟨id, id, fun _ => rfl⟩⟩
  unfold settlePanel
  split
  · exact hsettle.trans (filterPanel_keeps _)
  · exact .refl s

theorem popFrame_keeps (was : Bool) (s : State) : HostStepKeeps s (popFrame was s).1 := by
  unfold popFrame
  split
  · exact raise_keeps _ s
  · split
    · exact .refl s
    · exact ((drainSlot_keeps s).trans (checkPanel_keeps _)).trans (settlePanel_keeps _)

theorem popStep_keeps (s : State) : HostStepKeeps s (popStep s).1 :=
  ((wstrDrainStep_keeps s).trans (presenceUpdate_keeps _ _ _)).trans (popFrame_keeps _ _)

theorem filterModule_keeps (s : State) : HostStepKeeps s (filterModule s).1 := by
  have hfilter (m : Cache) : HostStepKeeps s { s with rf := { s.rf with mcache := m } } :=
    .of_part rfl rfl rfl rfl
  unfold filterModule
  split
  · exact .refl s
  · dsimp only
    split
    · exact (hfilter _).trans (raise_keeps _ _)
    · exact hfilter _

/-- MREAD clears `mod_capt` and writes the module cache: nothing else. -/
theorem mreadStep_keeps (s : State) : HostStepKeeps s (mreadStep s).1 := by
  have htaken : HostStepKeeps s { s with out := { s.out with mod_capt := false } } :=
    ⟨⟨rfl, .inl rfl, id, nofun⟩, ⟨id, id, id⟩⟩
  unfold mreadStep
  split
  · exact .refl s
  · dsimp only
    split
    · exact htaken
    · exact htaken.trans (filterModule_keeps _)

/-- CLR is a host command like the others, but for the sticky flags its mask selects. -/
theorem clearSticky_keeps (m : Byte) (s : State) : HostCommandKeeps s (clearSticky m s) :=
  ⟨rfl, .inl rfl, fun h => (Bool.and_eq_true_iff.mp h).1, id⟩

/-! ## Host commands: the operations -/

theorem HostStepKeeps.of_conclude {s t : State} {r : State × Byte}
    (h : HostStepKeeps (beginStep s) r.1) (hnext : conclude r = .next t) : HostStepKeeps s t := by
  have hbegin : HostStepKeeps s (beginStep s) := .of_part rfl rfl rfl rfl
  rw [conclude_next hnext]
  exact (hbegin.trans h).trans (.of_part rfl rfl rfl rfl)

theorem exec_clr_eq {m : Byte} {s t : State} (hnext : exec (.clr m) s = .next t) :
    t = setResult (clearSticky m (beginStep s)) 0x00#8 :=
  conclude_next hnext

/-- A host command is RESET, CLR, or keeps the bus's part and the sticky flags. -/
theorem exec_host_cases {i : Instr} {s t : State} (hport : i.port = .host)
    (hnext : exec i s = .next t) :
    i = .reset ∨ (∃ m, i = .clr m) ∨ HostStepKeeps s t := by
  cases i with
  | reset => exact .inl rfl
  | clr m => exact .inr (.inl ⟨m, rfl⟩)
  | nop => exact .inr (.inr (.of_conclude (.refl _) hnext))
  | pop => exact .inr (.inr (.of_conclude (popStep_keeps _) hnext))
  | mread => exact .inr (.inr (.of_conclude (mreadStep_keeps _) hnext))
  | crc => exact .inr (.inr (.of_conclude (checkPanel_keeps _) hnext))
  | wkey c => exact .inr (.inr (.of_conclude (submitChar_keeps c _) hnext))
  | wstrClr => exact .inr (.inr (.of_conclude (.of_part rfl rfl rfl rfl) hnext))
  | wstrPush c => exact .inr (.inr (.of_conclude (pushChar_keeps c _) hnext))
  | wstrGo => exact .inr (.inr (.of_conclude (.of_part rfl rfl rfl rfl) hnext))
  | rd idx => exact .inr (.inr (.of_conclude (.refl _) hnext))
  | wr idx val => exact .inr (.inr (.of_conclude (memWrite_keeps _ idx val) hnext))
  | evRise => cases hport
  | evFall => cases hport
  | evTimer clk data => cases hport

theorem exec_host_keeps {i : Instr} {s t : State} (hport : i.port = .host) (hreset : i ≠ .reset)
    (hnext : exec i s = .next t) : HostCommandKeeps s t := by
  rcases exec_host_cases hport hnext with rfl | ⟨m, rfl⟩ | h
  · exact absurd rfl hreset
  · obtain ⟨hpart, hlen, hovf, hcapt⟩ := clearSticky_keeps m (beginStep s)
    rw [exec_clr_eq hnext]
    exact ⟨hpart, hlen, hovf, hcapt⟩
  · exact h.command

/-- Settles O15: the bus's part is kept whole, so each of its elements is. -/
theorem hostCommandsLeaveBusState : Obligations.HostCommandsLeaveBusState := by
  intro i s t hport hreset hnext
  obtain ⟨hpart, hlen, hovf, hcapt⟩ := exec_host_keeps hport hreset hnext
  simp only [busPart, State.mk.injEq, FrameBuffer.mk.injEq, Presence.mk.injEq, OutputState.mk.injEq,
    FilterState.mk.injEq, WriteEngine.mk.injEq] at hpart
  tauto

/-- Settles O16: a bus event lowers none of the three flags, CLR those its mask selects, and no other host
command but RESET any. -/
theorem stickyFlagsStayUntilCleared : Obligations.StickyFlagsStayUntilCleared := by
  intro i s t hreset hnext
  cases hport : i.port with
  | bus =>
    obtain ⟨hovf, hchg, hsettled⟩ := (exec_bus_keeps hport hnext).sticky
    exact ⟨fun _ => hovf, fun _ => hchg, hsettled⟩
  | host =>
    rcases exec_host_cases hport hnext with rfl | ⟨m, rfl⟩ | h
    · exact absurd rfl hreset
    · rw [exec_clr_eq hnext]
      refine ⟨fun hmask hovf => ?_, fun hmask hchg => ?_, id⟩
      · simpa [hovf] using hmask m rfl
      · simpa [hchg] using hmask m rfl
    · obtain ⟨hovf, hchg, hsettled⟩ := h.sticky
      exact ⟨fun _ => hovf, fun _ => hchg, hsettled⟩

end Sys2Proof.Machine
end

section
/-! SUPPORT. The register map under RD and WR (10_state.md section 7, R32, R33; R106), row by row: what a
write makes of the state, what a read of each writable row returns, and what a read does not see; the proof
of O23. -/

namespace Sys2Proof.Machine

/-! ## The rows of the map -/

/-- An index that WR cannot write: read-only or reserved (R33). -/
def Unwritable (r : Byte) : Prop := r ≠ 0x00#8 ∧ r ≠ 0x0B#8 ∧ (r.toNat < 0x30 ∨ 0x80 < r.toNat)

/-- The rows of R106's case list. -/
theorem index_cases (r : Byte) :
    r = 0x00#8 ∨ r = 0x0B#8 ∨ (∃ k < 32, r.toNat = 0x30 + k) ∨ (∃ k < 32, r.toNat = 0x50 + k) ∨
      (∃ k < 8, r.toNat = 0x70 + k) ∨ (∃ k < 8, r.toNat = 0x78 + k) ∨ r = 0x80#8 ∨ Unwritable r := by
  by_cases h0 : r = 0x00#8
  · exact .inl h0
  by_cases h1 : r = 0x0B#8
  · exact .inr (.inl h1)
  by_cases h2 : r.toNat < 0x30 ∨ 0x80 < r.toNat
  · exact .inr (.inr (.inr (.inr (.inr (.inr (.inr ⟨h0, h1, h2⟩))))))
  by_cases h3 : r.toNat < 0x50
  · exact .inr (.inr (.inl ⟨r.toNat - 0x30, by omega, by omega⟩))
  by_cases h4 : r.toNat < 0x70
  · exact .inr (.inr (.inr (.inl ⟨r.toNat - 0x50, by omega, by omega⟩)))
  by_cases h5 : r.toNat < 0x78
  · exact .inr (.inr (.inr (.inr (.inl ⟨r.toNat - 0x70, by omega, by omega⟩))))
  by_cases h6 : r.toNat < 0x80
  · exact .inr (.inr (.inr (.inr (.inr (.inl ⟨r.toNat - 0x78, by omega, by omega⟩)))))
  · exact .inr (.inr (.inr (.inr (.inr (.inr (.inl (BitVec.eq_of_toNat_eq (by simp; omega))))))))

/-! ## A write, row by row (R106) -/

section
variable (s : State) {r : Byte} (v : Byte) {k : Nat}

theorem memWrite_ctrl : memWrite s 0x00#8 v = { s with ctl := writeCtrl s.cfg v s.ctl } := rfl

theorem memWrite_part :
    memWrite s 0x0B#8 v = { s with we := { s.we with wr_part := partitionOf s.cfg v.toNat } } := rfl

theorem memWrite_exempt (hr : r.toNat = 0x30 + k) (hk : k < 32) :
    memWrite s r v = { s with ctl := { s.ctl with crc_exempt := vset s.ctl.crc_exempt k v } } := by
  simp (disch := omega) only [memWrite, if_pos, if_neg, hr, Nat.add_sub_cancel_left]

theorem memWrite_query (hr : r.toNat = 0x50 + k) (hk : k < 32) :
    memWrite s r v = { s with ctl := { s.ctl with query_map := vset s.ctl.query_map k v } } := by
  simp (disch := omega) only [memWrite, if_pos, if_neg, hr, Nat.add_sub_cancel_left]

theorem memWrite_ccCode (hr : r.toNat = 0x70 + k) (hk : k < 8) :
    memWrite s r v = { s with rf := writeCcCode k v s.rf } := by
  simp (disch := omega) only [memWrite, if_pos, if_neg, hr, Nat.add_sub_cancel_left]

theorem memWrite_ccLen (hr : r.toNat = 0x78 + k) (hk : k < 8) :
    memWrite s r v = { s with rf := writeCcLen k v s.rf } := by
  simp (disch := omega) only [memWrite, if_pos, if_neg, hr, Nat.add_sub_cancel_left]

theorem memWrite_ccEn : memWrite s 0x80#8 v = { s with rf := { s.rf with cc_en := v } } := rfl

/-- WR has no effect at an index that is read-only or reserved (R33). -/
theorem memWrite_unwritable (hr : Unwritable r) : memWrite s r v = s := by
  obtain ⟨hctrl, hpart, hrange⟩ := hr
  have h0 : r.toNat ≠ 0x00 := fun e => hctrl (BitVec.eq_of_toNat_eq e)
  have hB : r.toNat ≠ 0x0B := fun e => hpart (BitVec.eq_of_toNat_eq e)
  by_cases hlow : r.toNat < 0x30 <;> simp (disch := omega) only [memWrite, if_pos, if_neg]
end

/-! ## A read of a writable row (R32) -/

section
variable (s : State) {r : Byte} {k : Nat}

theorem memRead_ctrl : memRead s 0x00#8 = ctrlByte s.ctl := rfl

theorem memRead_wrPart : memRead s 0x0B#8 = s.we.wr_part.setWidth 8 := rfl

theorem memRead_exempt (hr : r.toNat = 0x30 + k) (hk : k < 32) :
    memRead s r = vget s.ctl.crc_exempt k 0 := by
  simp (disch := omega) only [memRead, if_pos, if_neg, hr, Nat.add_sub_cancel_left]

theorem memRead_query (hr : r.toNat = 0x50 + k) (hk : k < 32) :
    memRead s r = vget s.ctl.query_map k 0 := by
  simp (disch := omega) only [memRead, if_pos, if_neg, hr, Nat.add_sub_cancel_left]

theorem memRead_ccCode (hr : r.toNat = 0x70 + k) (hk : k < 8) :
    memRead s r = (ccEntry s.rf k).code := by
  simp (disch := omega) only [memRead, if_pos, if_neg, hr, Nat.add_sub_cancel_left]

theorem memRead_ccLen (hr : r.toNat = 0x78 + k) (hk : k < 8) :
    memRead s r = (ccEntry s.rf k).len := by
  simp (disch := omega) only [memRead, if_pos, if_neg, hr, Nat.add_sub_cancel_left]

theorem memRead_ccEn : memRead s 0x80#8 = s.rf.cc_en := rfl

/-! ## What a read does not see -/

/-- A read at an index that is read-only or reserved sees nothing that WR writes (R33). -/
theorem memRead_of_unwritable (hr : Unwritable r) (c : ControlState) (n : BitVec 4) (f : FilterState) :
    memRead { s with ctl := c, we := { s.we with wr_part := n }, rf := f } r = memRead s r := by
  obtain ⟨hctrl, hpart, hrange⟩ := hr
  have h0 : r.toNat ≠ 0x00 := fun e => hctrl (BitVec.eq_of_toNat_eq e)
  have hB : r.toNat ≠ 0x0B := fun e => hpart (BitVec.eq_of_toNat_eq e)
  unfold memRead
  rcases hrange with hlow | hhigh
  · simp only [if_neg h0, if_neg hB, if_pos hlow]
    rfl
  · have h50 : ¬r.toNat < 0x50 := by omega
    have h70 : ¬r.toNat < 0x70 := by omega
    have h78 : ¬r.toNat < 0x78 := by omega
    have h80 : ¬r.toNat < 0x80 := by omega
    simp only [if_neg h0, if_neg hB, if_neg h50, if_neg h70, if_neg h78, if_neg h80,
      if_neg (Nat.ne_of_gt hhigh)]
    rfl

/-- A read sees the selected partition in WR_PART alone. -/
theorem memRead_of_part (n : BitVec 4) (hr : r ≠ 0x0B#8) :
    memRead { s with we := { s.we with wr_part := n } } r = memRead s r := by
  have hpart : r.toNat ≠ 0x0B := fun e => hr (BitVec.eq_of_toNat_eq e)
  unfold memRead
  simp only [if_neg hpart]
  rfl

/-- A read sees the control state in CTRL and in the two tables alone. -/
theorem memRead_of_ctl {c : ControlState}
    (hctrl : r = 0x00#8 → ctrlByte c = ctrlByte s.ctl)
    (hexempt : ∀ k, r.toNat = 0x30 + k → vget c.crc_exempt k 0 = vget s.ctl.crc_exempt k 0)
    (hquery : ∀ k, r.toNat = 0x50 + k → vget c.query_map k 0 = vget s.ctl.query_map k 0) :
    memRead { s with ctl := c } r = memRead s r := by
  rcases index_cases r with rfl | rfl | ⟨k, hk, hr⟩ | ⟨k, hk, hr⟩ | ⟨k, hk, hr⟩ | ⟨k, hk, hr⟩ | rfl | hr
  · exact hctrl rfl
  · rfl
  · rw [memRead_exempt _ hr hk, memRead_exempt _ hr hk, hexempt k hr]
  · rw [memRead_query _ hr hk, memRead_query _ hr hk, hquery k hr]
  · rw [memRead_ccCode _ hr hk, memRead_ccCode _ hr hk]
  · rw [memRead_ccLen _ hr hk, memRead_ccLen _ hr hk]
  · rfl
  · exact memRead_of_unwritable s hr c s.we.wr_part s.rf

/-- A read sees the filter state in the entries' codes and lengths and in their enable bits alone. -/
theorem memRead_of_rf {f : FilterState}
    (hcode : ∀ k, r.toNat = 0x70 + k → (ccEntry f k).code = (ccEntry s.rf k).code)
    (hlen : ∀ k, r.toNat = 0x78 + k → (ccEntry f k).len = (ccEntry s.rf k).len)
    (hen : r = 0x80#8 → f.cc_en = s.rf.cc_en) :
    memRead { s with rf := f } r = memRead s r := by
  rcases index_cases r with rfl | rfl | ⟨k, hk, hr⟩ | ⟨k, hk, hr⟩ | ⟨k, hk, hr⟩ | ⟨k, hk, hr⟩ | rfl | hr
  · rfl
  · rfl
  · rw [memRead_exempt _ hr hk, memRead_exempt _ hr hk]
  · rw [memRead_query _ hr hk, memRead_query _ hr hk]
  · rw [memRead_ccCode _ hr hk, memRead_ccCode _ hr hk, hcode k hr]
  · rw [memRead_ccLen _ hr hk, memRead_ccLen _ hr hk, hlen k hr]
  · exact hen rfl
  · exact memRead_of_unwritable s hr s.ctl s.we.wr_part f
end

/-! ## Entries of the consumer filter under a write -/

theorem ccEntry_code_writeCcCode (f : FilterState) (j k : Nat) (v : Byte) :
    (ccEntry (writeCcCode j v f) k).code = if j = k ∧ k < 8 then v else (ccEntry f k).code := by
  simp only [ccEntry, writeCcCode, vget_vset]
  split <;> rfl

theorem ccEntry_len_writeCcCode (f : FilterState) (j k : Nat) (v : Byte) :
    (ccEntry (writeCcCode j v f) k).len = (ccEntry f k).len := by
  simp only [ccEntry, writeCcCode, vget_vset]
  split
  · next h => rw [h.1]
  · rfl

theorem ccEntry_len_writeCcLen (f : FilterState) (j k : Nat) (v : Byte) :
    (ccEntry (writeCcLen j v f) k).len = if j = k ∧ k < 8 then v else (ccEntry f k).len := by
  simp only [ccEntry, writeCcLen, vget_vset]
  split <;> rfl

theorem ccEntry_code_writeCcLen (f : FilterState) (j k : Nat) (v : Byte) :
    (ccEntry (writeCcLen j v f) k).code = (ccEntry f k).code := by
  simp only [ccEntry, writeCcLen, vget_vset]
  split
  · next h => rw [h.1]
  · rfl

/-! ## Reading after writing -/

theorem ctrlByte_writeCtrl_toNat (p : Params) (v : Byte) (c : ControlState) :
    (ctrlByte (writeCtrl p v c)).toNat =
      v.toNat % 4 + (if v.getLsbD 2 && p.write_line_present then 4 else 0) := by
  have bits : ∀ (v : Byte) (present : Bool),
      (BitVec.ofBoolListLE [v.getLsbD 0, v.getLsbD 1, v.getLsbD 2 && present, false, false, false,
        false, false]).toNat = v.toNat % 4 + (if v.getLsbD 2 && present then 4 else 0) := by decide
  exact bits v p.write_line_present

/-- At most eight partitions (R7, D38), so the one selected fits its register. -/
theorem partitionOf_toNat (p : Params) (n : Nat) :
    (partitionOf p n).toNat = if 1 ≤ n ∧ n ≤ p.maxPartitions then n else 1 := by
  have hmax : p.maxPartitions ≤ 8 := p.lastPartition.isLt
  unfold partitionOf
  split
  · next h => exact Nat.mod_eq_of_lt (by omega)
  · rfl

theorem memRead_memWrite_self (s : State) {r : Byte} (v : Byte) (hlo : 0x30 ≤ r.toNat)
    (hhi : r.toNat ≤ 0x80) : memRead (memWrite s r v) r = v := by
  rcases index_cases r with rfl | rfl | ⟨k, hk, hr⟩ | ⟨k, hk, hr⟩ | ⟨k, hk, hr⟩ | ⟨k, hk, hr⟩ | rfl |
    ⟨-, -, hrange⟩
  · exact absurd hlo (by decide)
  · exact absurd hlo (by decide)
  · rw [memWrite_exempt s v hr hk, memRead_exempt _ hr hk, vget_vset_self _ _ _ _ hk]
  · rw [memWrite_query s v hr hk, memRead_query _ hr hk, vget_vset_self _ _ _ _ hk]
  · rw [memWrite_ccCode s v hr hk, memRead_ccCode _ hr hk, ccEntry_code_writeCcCode, if_pos ⟨rfl, hk⟩]
  · rw [memWrite_ccLen s v hr hk, memRead_ccLen _ hr hk, ccEntry_len_writeCcLen, if_pos ⟨rfl, hk⟩]
  · rw [memWrite_ccEn, memRead_ccEn]
  · omega

/-- A write to one index is not seen at another. -/
theorem memRead_memWrite_of_ne (s : State) {r q : Byte} (v : Byte) (hne : q ≠ r) :
    memRead (memWrite s r v) q = memRead s q := by
  have hidx : q.toNat ≠ r.toNat := fun e => hne (BitVec.eq_of_toNat_eq e)
  rcases index_cases r with rfl | rfl | ⟨j, hj, hr⟩ | ⟨j, hj, hr⟩ | ⟨j, hj, hr⟩ | ⟨j, hj, hr⟩ | rfl | hr
  · rw [memWrite_ctrl]
    exact memRead_of_ctl s (fun e => absurd e hne) (fun _ _ => rfl) (fun _ _ => rfl)
  · rw [memWrite_part]
    exact memRead_of_part s _ hne
  · rw [memWrite_exempt s v hr hj]
    exact memRead_of_ctl s (fun _ => rfl) (fun k hq => vget_vset_ne _ _ _ _ _ (by omega))
      (fun _ _ => rfl)
  · rw [memWrite_query s v hr hj]
    exact memRead_of_ctl s (fun _ => rfl) (fun _ _ => rfl)
      (fun k hq => vget_vset_ne _ _ _ _ _ (by omega))
  · rw [memWrite_ccCode s v hr hj]
    exact memRead_of_rf s
      (fun k hq => (ccEntry_code_writeCcCode ..).trans (if_neg fun h => by omega))
      (fun k _ => ccEntry_len_writeCcCode ..) (fun _ => rfl)
  · rw [memWrite_ccLen s v hr hj]
    exact memRead_of_rf s (fun k _ => ccEntry_code_writeCcLen ..)
      (fun k hq => (ccEntry_len_writeCcLen ..).trans (if_neg fun h => by omega)) (fun _ => rfl)
  · rw [memWrite_ccEn]
    exact memRead_of_rf s (fun _ _ => rfl) (fun _ _ => rfl) (fun e => absurd e hne)
  · rw [memWrite_unwritable s v hr]

/-- Settles O23: each row read back through its own equations; no write is seen at another index. -/
theorem writtenRegistersReadBack : Obligations.WrittenRegistersReadBack := by
  refine fun s r v => ⟨fun ⟨hlo, hhi⟩ => memRead_memWrite_self s v hlo hhi, ?_, ?_,
    fun q hne => memRead_memWrite_of_ne s v hne⟩
  · show (memRead (memWrite s 0x00#8 v) 0x00#8).toNat = _
    rw [memWrite_ctrl, memRead_ctrl, ctrlByte_writeCtrl_toNat]
  · show (memRead (memWrite s 0x0B#8 v) 0x0B#8).toNat = _
    rw [memWrite_part, memRead_wrPart, BitVec.toNat_setWidth_of_le (by decide), partitionOf_toNat]

end Sys2Proof.Machine
end

section
/-! SUPPORT. The frame arrays hold 0x00 above their byte counts (20_memory.md section 2, R38): what a frame
keeps under a byte written and a bit shifted in, unit by unit and operation by operation, and the proof of
O12. -/

namespace Sys2Proof.Machine

/-! ## Clear frames -/

theorem tailClear_zeroFrame (n : Nat) : TailClear zeroFrame n := fun i _ => byteAt_zeroFrame i

theorem partialClear_zeroFrame (n k : Nat) : PartialClear zeroFrame n k :=
  ⟨tailClear_zeroFrame n, by simp⟩

section
variable {f : Frame} {n k : Nat}

theorem TailClear.mono {m : Nat} (h : TailClear f n) (hle : n ≤ m) : TailClear f m :=
  fun i hi => h i (by omega)

/-- A byte written at or below the count leaves the tail clear. -/
theorem TailClear.setByte {i : Nat} (h : TailClear f n) (hle : i ≤ n) (b : Byte) :
    TailClear (setByte f i b) n :=
  fun j hj => (byteAt_setByte_ne f i j b (by omega)).trans (h j hj)

/-- A byte above a clear tail's count holds no bit yet. -/
theorem TailClear.partialClear {m : Nat} (h : TailClear f n) (hlt : n < m) : PartialClear f m 0 :=
  ⟨h.mono (by omega), by simp [h m hlt]⟩

/-- One more bit shifted into the current byte (R39, R69). -/
theorem PartialClear.shift (h : PartialClear f n k) (hn : n < 16) (d : Bool) :
    PartialClear (Machine.setByte f n (shiftIn (byteAt f n) d)) n (k + 1) := by
  obtain ⟨htail, hbyte⟩ := h
  refine ⟨htail.setByte le_rfl _, ?_⟩
  have hd : d.toNat ≤ 1 := Bool.toNat_le d
  have hmod := Nat.mod_le (2 * (byteAt f n).toNat + d.toNat) 256
  rw [byteAt_setByte_self _ _ _ hn, shiftIn_toNat, Nat.pow_succ]
  omega
end

/-! ## The units that hold frames -/

/-- The two accumulators of the BitSampler are clear. -/
def AccumulatorsClear (b : BitSampler) : Prop :=
  PartialClear b.acc_p b.p_byte_count.toNat b.p_bit_count.toNat ∧
    PartialClear b.acc_m b.m_byte_count.toNat b.m_bit_count.toNat

/-- The slots of the FrameBuffer are clear. -/
def SlotsClear (fb : FrameBuffer) : Prop :=
  ∀ k, TailClear (vget fb.buf_data k zeroFrame) (vget fb.buf_bytes k 0).toNat

/-- The panel and the module output are clear. -/
def OutputsClear (o : OutputState) : Prop :=
  TailClear o.panel_data o.panel_bytes.toNat ∧ TailClear o.mod_data o.mod_bytes.toNat

theorem framesClear_iff (s : State) :
    s.FramesClear ↔ AccumulatorsClear s.bs ∧ SlotsClear s.fb ∧ OutputsClear s.out := by
  simp only [State.FramesClear, AccumulatorsClear, SlotsClear, OutputsClear, and_assoc]

/-- A change that leaves the three units that hold frames alone. -/
theorem State.FramesClear.of_units {s t : State} (h : s.FramesClear) (bs : t.bs = s.bs)
    (fb : t.fb = s.fb) (out : t.out = s.out) : t.FramesClear := by
  rwa [framesClear_iff, bs, fb, out, ← framesClear_iff]

theorem powerUp_framesClear (p : Params) : (powerUp p).FramesClear := by
  refine ⟨partialClear_zeroFrame _ _, partialClear_zeroFrame _ _, fun k => ?_,
    tailClear_zeroFrame _, tailClear_zeroFrame _⟩
  simpa [powerUp] using tailClear_zeroFrame _

/-! ## BitSampler (R69..R75) -/

section
variable {b : BitSampler}

theorem clearAccumulators_clear (b : BitSampler) : AccumulatorsClear (clearAccumulators b) :=
  ⟨partialClear_zeroFrame _ _, partialClear_zeroFrame _ _⟩

/-- The stop slot is written below the byte the payload goes on with: the command byte is complete, so the
slot is the current byte (R70). -/
theorem panelStop_clear (h : AccumulatorsClear b) (hslot : b.p_byte_count = 1) :
    AccumulatorsClear (panelStop b) := by
  obtain ⟨⟨htail, -⟩, hm⟩ := h
  rw [hslot] at htail
  refine ⟨?_, hm⟩
  simpa [hslot] using (htail.setByte (i := 1) (by decide) Config.stopValue).partialClear (m := 2)
    (by decide)

theorem panelShift_clear (h : AccumulatorsClear b) (hroom : b.p_byte_count.toNat < 16) (d : Bool) :
    AccumulatorsClear (panelShift d b) := by
  obtain ⟨hp, hm⟩ := h
  have hshift := hp.shift hroom d
  unfold panelShift
  dsimp only
  split
  · next hbits =>
    have hcount : (b.p_bit_count + 1).toNat = b.p_bit_count.toNat + 1 := by bv_omega
    exact ⟨hcount ▸ hshift, hm⟩
  · have hbelow : b.p_byte_count.toNat < (b.p_byte_count + 1).toNat := by bv_omega
    exact ⟨hshift.1.partialClear hbelow, hm⟩

theorem panelBit_clear (h : AccumulatorsClear b) (hcounters : PanelCounters b) (d : Bool) :
    AccumulatorsClear (panelBit d b) := by
  unfold panelBit
  dsimp only
  split
  · next hstop =>
    have hslot : b.p_byte_count = 1 := by
      unfold PanelCounters at hcounters
      bv_omega
    exact panelStop_clear h hslot
  · split
    · next hroom => exact panelShift_clear h hroom d
    · exact h

theorem moduleShift_clear (h : AccumulatorsClear b) (hroom : b.m_byte_count.toNat < 16) (p : Params)
    (d : Bool) : AccumulatorsClear (moduleShift p d b) := by
  obtain ⟨hp, hm⟩ := h
  have hshift := hm.shift hroom (moduleLevel p d)
  unfold moduleShift
  dsimp only
  split
  · have hbelow : b.m_byte_count.toNat + 1 < (b.m_byte_count + 2).toNat := by bv_omega
    have hstop := (hshift.1.mono (Nat.le_succ _)).setByte (i := 1) (by omega) Config.stopValue
    exact ⟨hp, hstop.partialClear hbelow⟩
  · split
    · next hbits =>
      have hcount : (b.m_bit_count + 1).toNat = b.m_bit_count.toNat + 1 := by bv_omega
      exact ⟨hp, hcount ▸ hshift⟩
    · have hbelow : b.m_byte_count.toNat < (b.m_byte_count + 1).toNat := by bv_omega
      exact ⟨hp, hshift.1.partialClear hbelow⟩

theorem moduleBit_clear (h : AccumulatorsClear b) (p : Params) (modEn : Bool) (depth : Nat) (d : Bool) :
    AccumulatorsClear (moduleBit p modEn depth d b) := by
  unfold moduleBit
  split
  · next hgate =>
    simp only [moduleGate, Bool.and_eq_true, decide_eq_true_eq] at hgate
    exact moduleShift_clear h hgate.2 p d
  · exact h
end

/-! ## FrameBuffer and outputs (R82, R84, R97) -/

/-- The slot an admitted frame takes holds the accumulator with its byte count. -/
theorem bufferAfter_clear {b : BitSampler} {fb : FrameBuffer} (hslots : SlotsClear fb)
    (hacc : AccumulatorsClear b) (a : Admission) : SlotsClear (bufferAfter a b fb) := by
  rcases bufferAfter_cases a b fb with ⟨-, h⟩ | ⟨-, -, h⟩ | ⟨-, -, h⟩ <;> rw [h]
  · exact hslots
  · exact hslots
  · intro k
    simp only [vget_vset]
    split
    · exact hacc.1.1
    · exact hslots k

theorem latchModule_clear {b : BitSampler} {o : OutputState} (hout : OutputsClear o)
    (hacc : AccumulatorsClear b) (modEn : Bool) : OutputsClear (latchModule modEn b o) := by
  unfold latchModule
  split
  · exact ⟨hout.1, hacc.2.1⟩
  · exact hout

theorem copySlot_clear {fb : FrameBuffer} {o : OutputState} (hslots : SlotsClear fb)
    (hout : OutputsClear o) : OutputsClear (copySlot fb o) :=
  ⟨hslots fb.buf_rd.toNat, hout.2⟩

/-- The read index moves, or the buffer is emptied: the slots stay as they are. -/
theorem advanceRead_clear {fb : FrameBuffer} (hslots : SlotsClear fb) : SlotsClear (advanceRead fb) := by
  rcases advanceRead_cases fb with ⟨-, h⟩ | ⟨-, h⟩ <;> rw [h] <;> exact hslots

/-! ## Bus events -/

section
variable {s : State} (h : s.FramesClear)
include h

theorem complete_framesClear : (complete s).FramesClear := by
  obtain ⟨hacc, hslots, hout⟩ := (framesClear_iff s).mp h
  exact (framesClear_iff _).mpr ⟨clearAccumulators_clear _, bufferAfter_clear hslots hacc _,
    latchModule_clear hout hacc _⟩

theorem samplePanel_framesClear (hcounters : PanelCounters s.bs) (d : Bool) :
    (samplePanel d s).FramesClear := by
  obtain ⟨hacc, hrest⟩ := (framesClear_iff s).mp h
  exact (framesClear_iff _).mpr ⟨panelBit_clear hacc hcounters d, hrest⟩

theorem sampleModule_framesClear (d : Bool) : (sampleModule d s).FramesClear := by
  obtain ⟨hacc, hrest⟩ := (framesClear_iff s).mp h
  exact (framesClear_iff _).mpr ⟨moduleBit_clear hacc _ _ _ d, hrest⟩

theorem timerExpiry_framesClear (hcounters : PanelCounters s.bs) (clk data : Bool) :
    (timerExpiry clk data s).FramesClear := by
  have hdisarmed : State.FramesClear { s with bs := { s.bs with tmr_armed := false } } := h
  rcases timerExpiry_cases clk data s with ⟨-, e⟩ | ⟨-, -, e⟩ | ⟨-, -, -, e⟩ | ⟨-, -, -, e⟩ <;> rw [e]
  · exact h
  · exact samplePanel_framesClear hdisarmed hcounters data
  · exact sampleModule_framesClear (complete_framesClear hdisarmed) data
  · exact sampleModule_framesClear hdisarmed data

/-! ## Host commands -/

theorem submitChar_framesClear (c : Byte) : (submitChar c s).1.FramesClear :=
  h.of_units (by simp) (by simp) (by simp)

theorem pushChar_framesClear (c : Byte) : (pushChar c s).1.FramesClear := by
  unfold pushChar
  split
  · exact h
  · split <;> exact h

theorem memWrite_framesClear (r v : Byte) : (memWrite s r v).FramesClear := by
  rcases memWrite_cases s r v with ⟨-, e⟩ | ⟨-, e⟩ | ⟨_, e⟩ | ⟨_, e⟩ | ⟨_, e⟩ | ⟨_, e⟩ | e <;> rw [e] <;>
    exact h

theorem drainSlot_framesClear : (drainSlot s).FramesClear := by
  obtain ⟨hacc, hslots, hout⟩ := (framesClear_iff s).mp h
  exact (framesClear_iff _).mpr ⟨hacc, advanceRead_clear hslots, copySlot_clear hslots hout⟩

theorem checkPanel_framesClear : (checkPanel s).FramesClear := by
  obtain ⟨hacc, hslots, hout⟩ := (framesClear_iff s).mp h
  rw [framesClear_iff, checkPanel_bs, checkPanel_fb, checkPanel_out]
  exact ⟨hacc, hslots, hout⟩

theorem filterPanel_framesClear : (filterPanel s).1.FramesClear := by
  unfold filterPanel
  split
  · exact h
  · dsimp only
    split <;> exact h

theorem settlePanel_framesClear : (settlePanel s).1.FramesClear := by
  unfold settlePanel
  split
  · exact filterPanel_framesClear (s := { s with out := { s.out with settled := true } }) h
  · exact h

theorem popFrame_framesClear (was : Bool) : (popFrame was s).1.FramesClear := by
  unfold popFrame
  split
  · exact h
  · split
    · exact h
    · exact settlePanel_framesClear (checkPanel_framesClear (drainSlot_framesClear h))

theorem popStep_framesClear : (popStep s).1.FramesClear := by
  obtain ⟨-, -, hbs, hfb, -, -, hout, -, -⟩ := wstrDrainStep_frame s
  have hdrained : (wstrDrainStep s).FramesClear := h.of_units hbs hfb hout
  apply popFrame_framesClear
  exact hdrained

theorem filterModule_framesClear : (filterModule s).1.FramesClear := by
  unfold filterModule
  split
  · exact h
  · dsimp only
    split <;> exact h

theorem mreadStep_framesClear : (mreadStep s).1.FramesClear := by
  unfold mreadStep
  split
  · exact h
  · dsimp only
    split
    · exact h
    · exact filterModule_framesClear (s := { s with out := { s.out with mod_capt := false } }) h
end

/-! ## Every operation, every step -/

/-- The end of an operation writes the step's result alone. -/
theorem State.FramesClear.of_conclude {t : State} {r : State × Byte} (h : r.1.FramesClear)
    (hnext : conclude r = .next t) : t.FramesClear := by
  rw [conclude_next hnext]
  exact h

/-- Only a panel bit asks anything of the counters: at bitTotal 8 the stop slot is the current byte. -/
theorem exec_framesClear {i : Instr} {s t : State} (hcounters : PanelCounters s.bs)
    (h : s.FramesClear) (hnext : exec i s = .next t) : t.FramesClear := by
  have hbegin : (beginStep s).FramesClear := h
  cases i with
  | nop => exact .of_conclude hbegin hnext
  | pop => exact .of_conclude (popStep_framesClear hbegin) hnext
  | mread => exact .of_conclude (mreadStep_framesClear hbegin) hnext
  | crc => exact .of_conclude (checkPanel_framesClear hbegin) hnext
  | wkey c => exact .of_conclude (submitChar_framesClear hbegin c) hnext
  | wstrClr => exact .of_conclude hbegin hnext
  | wstrPush c => exact .of_conclude (pushChar_framesClear hbegin c) hnext
  | wstrGo => exact .of_conclude hbegin hnext
  | clr mask => exact .of_conclude hbegin hnext
  | rd idx => exact .of_conclude hbegin hnext
  | wr idx val => exact .of_conclude (memWrite_framesClear hbegin idx val) hnext
  | reset => exact .of_conclude (powerUp_framesClear s.cfg) hnext
  | evRise => exact .of_conclude hbegin hnext
  | evFall => exact .of_conclude hbegin hnext
  | evTimer clk data =>
    exact .of_conclude (timerExpiry_framesClear hbegin hcounters clk data) hnext

theorem runPresented_framesClear {p : Presented} {s t : State} (hcounters : PanelCounters s.bs)
    (h : s.FramesClear) (hnext : runPresented p s = .next t) : t.FramesClear := by
  have hlatched : (latchInputs p s).FramesClear := h
  unfold runPresented at hnext
  split at hnext
  · exact exec_framesClear (s := latchInputs p s) hcounters hlatched hnext
  · exact .of_conclude hlatched hnext

/-- Settles O12: the operation taken keeps the frames clear, given the panel counters of the invariant. -/
theorem stepKeepsFramesClear : Obligations.StepKeepsFramesClear := by
  intro s t hinv h hnext
  obtain ⟨⟨hcounters, -⟩, -⟩ := hinv
  have htaken : (takePresented s).2.FramesClear := h.of_units (by simp) (by simp) (by simp)
  exact runPresented_framesClear (by rwa [takePresented_bs]) htaken hnext

end Sys2Proof.Machine
end

section
/-! SUPPORT. POP after POP (43_consumer.md section 2, R97, R98): what one POP does of a machine that is
delivering, the machine after k of them, and the proof of O49. -/

namespace Sys2Proof.Machine

/-! ## POPs in a row -/

/-- The machine after a POP, which always goes on (R124). -/
def popped (s : State) : State := setResult (popStep (beginStep s)).1 (popStep (beginStep s)).2

theorem exec_pop (s : State) : exec .pop s = .next (popped s) := rfl

theorem popTimes_eq_iterate (n : Nat) (s : State) : popTimes n s = popped^[n] s := by
  induction n generalizing s with
  | zero => rfl
  | succ n ih => rw [popTimes, exec_pop, Function.iterate_succ_apply]; exact ih (popped s)

theorem popTimes_succ (n : Nat) (s : State) : popTimes (n + 1) s = popped (popTimes n s) := by
  simp only [popTimes_eq_iterate, Function.iterate_succ_apply']

/-! ## The parts of a POP, where nothing is in their way -/

theorem wstrDrainStep_of_inactive {s : State} (h : s.sq.wstr_active = false) : wstrDrainStep s = s := by
  simp [wstrDrainStep, h]

theorem presenceUpdate_of_connNow_eq {limit now : Word} {b : Presence}
    (h : connNow limit now b = b.connected) : presenceUpdate limit now b = b :=
  if_pos h

theorem popFrame_of_connected (was : Bool) {s : State} (hconn : s.bus.connected = true)
    (hlen : s.fb.buf_len ≠ 0) : popFrame was s = settlePanel (checkPanel (drainSlot s)) := by
  simp only [popFrame, hconn, Bool.not_true, Bool.and_false, Bool.false_eq_true, if_false, if_neg hlen]

theorem settlePanel_of_settled {s : State} (hsettled : s.out.settled = true)
    (hshown : s.ctl.proc_red = true) : settlePanel s = acceptPanel s := by
  have hsame : { s with out := { s.out with settled := true } } = s := by rw [← hsettled]
  simp only [settlePanel, hsettled, Bool.true_or, if_true, hsame, filterPanel, hshown]

@[simp] theorem checkPanel_now_ms (s : State) : (checkPanel s).io.now_ms = s.io.now_ms := by
  simp [checkPanel]

/-! ## A delivering machine -/

/-- Nothing keeps a POP from delivering the next slot: no string active, redundant frames shown, settled,
and the bus connected and not timed out. -/
structure Delivering (s : State) : Prop where
  quiet : s.sq.wstr_active = false
  shown : s.ctl.proc_red = true
  settled : s.out.settled = true
  connected : s.bus.connected = true
  recent : connNow s.cfg.timing.t_bus_ms s.io.now_ms s.bus = true

section
variable {s : State} (h : Delivering s) (hlen : s.fb.buf_len ≠ 0)
include h hlen

/-- With a frame left, a POP drains its slot, checks it and accepts it. -/
theorem popStep_of_delivering : popStep s = acceptPanel (checkPanel (drainSlot s)) := by
  obtain ⟨hquiet, hshown, hsettled, hconn, hrecent⟩ := h
  have hpresence := presenceUpdate_of_connNow_eq (hrecent.trans hconn.symm)
  calc popStep s
      = popFrame s.bus.connected s := by simp only [popStep, wstrDrainStep_of_inactive hquiet, hpresence]
    _ = settlePanel (checkPanel (drainSlot s)) := popFrame_of_connected _ hconn hlen
    _ = acceptPanel (checkPanel (drainSlot s)) := settlePanel_of_settled (by simpa) (by simpa)

theorem popped_of_delivering :
    popped s = setResult (acceptPanel (checkPanel (drainSlot (beginStep s)))).1 0x01#8 := by
  have hbegin : Delivering (beginStep s) := ⟨h.quiet, h.shown, h.settled, h.connected, h.recent⟩
  rw [popped, popStep_of_delivering hbegin hlen]
  rfl

theorem popped_fb : (popped s).fb = advanceRead s.fb := by
  simp [popped_of_delivering h hlen, acceptPanel]

theorem delivering_popped : Delivering (popped s) := by
  obtain ⟨hquiet, hshown, hsettled, hconn, hrecent⟩ := h
  rw [popped_of_delivering ⟨hquiet, hshown, hsettled, hconn, hrecent⟩ hlen]
  constructor <;> simp [acceptPanel, copySlot, *]

/-- What the POP shows the consumer: the slot at the read index, with result 0x01. -/
theorem popped_delivers :
    (popped s).io.result = 0x01#8 ∧
      (popped s).out.panel_data = vget s.fb.buf_data s.fb.buf_rd.toNat zeroFrame ∧
      (popped s).out.panel_bytes = vget s.fb.buf_bytes s.fb.buf_rd.toNat 0 ∧
      (popped s).out.panel_bits = vget s.fb.buf_bits s.fb.buf_rd.toNat 0 ∧
      (popped s).out.last_disp_cmd =
        byteAt (vget s.fb.buf_data s.fb.buf_rd.toNat zeroFrame) 0 := by
  rw [popped_of_delivering h hlen]
  simp [acceptPanel, copySlot]
end

/-- After k POPs of a drain cycle begun at slot 0, the slots stand as they did and the read index is k. -/
theorem popTimes_of_lt {s : State} (h : Delivering s) (hrd : s.fb.buf_rd = 0) {k : Nat}
    (hk : k < s.fb.buf_len.toNat) :
    Delivering (popTimes k s) ∧ (popTimes k s).fb = { s.fb with buf_rd := BitVec.ofNat 4 k } := by
  induction k with
  | zero => exact ⟨h, congrArg ({ s.fb with buf_rd := · }) hrd⟩
  | succ k ih =>
    obtain ⟨hdelivering, hfb⟩ := ih (by omega)
    have hlen : (popTimes k s).fb.buf_len ≠ 0 := by rw [hfb]; bv_omega
    rw [popTimes_succ, popped_fb hdelivering hlen, hfb]
    refine ⟨delivering_popped hdelivering hlen, ?_⟩
    rcases advanceRead_cases { s.fb with buf_rd := BitVec.ofNat 4 k } with ⟨hend, -⟩ | ⟨-, e⟩
    · bv_omega
    · rw [e, BitVec.ofNat_add]; rfl

/-- The last POP of a drain cycle empties the buffer (R98). -/
theorem popTimes_buf_len {s : State} (h : Delivering s) (hrd : s.fb.buf_rd = 0) :
    (popTimes s.fb.buf_len.toNat s).fb.buf_len = 0 ∧ (popTimes s.fb.buf_len.toNat s).fb.buf_rd = 0 := by
  cases hn : s.fb.buf_len.toNat with
  | zero => exact ⟨BitVec.eq_of_toNat_eq hn, hrd⟩
  | succ k =>
    obtain ⟨hdelivering, hfb⟩ := popTimes_of_lt h hrd (k := k) (by omega)
    have hlen : (popTimes k s).fb.buf_len ≠ 0 := by rw [hfb]; bv_omega
    rw [popTimes_succ, popped_fb hdelivering hlen, hfb]
    rcases advanceRead_cases { s.fb with buf_rd := BitVec.ofNat 4 k } with ⟨-, e⟩ | ⟨hmore, -⟩
    · rw [e]; exact ⟨rfl, rfl⟩
    · bv_omega

/-- Settles O49: before the (k+1)-th POP the machine delivers and its read index is k, so it shows slot k;
the n-th is the last of the drain cycle. -/
theorem popDeliversFramesInArrivalOrder : Obligations.PopDeliversFramesInArrivalOrder := by
  rintro s n rfl - hrd hquiet hsettled hshown hconn hseen hgap
  have h : Delivering s :=
    ⟨hquiet, hshown, hsettled, hconn, by simpa [connNow, hseen, BitVec.le_def] using hgap⟩
  refine ⟨fun k hk => ?_, popTimes_buf_len h hrd⟩
  obtain ⟨hdelivering, hfb⟩ := popTimes_of_lt h hrd hk
  have hlen : (popTimes k s).fb.buf_len ≠ 0 := by rw [hfb]; bv_omega
  have hindex : (BitVec.ofNat 4 k).toNat = k := by bv_omega
  simpa only [popTimes_succ, hfb, hindex] using popped_delivers hdelivering hlen

end Sys2Proof.Machine
end

section
/-! SUPPORT. The encoding of operations (spec/30_encoding.md): the fields of a word, the decoder and the
encoder against each other, the row of R56 an operation stands in, and the proofs of O1 to O6 and of O8 that
rest on them. -/

namespace Sys2Proof

/-! ## Fields (R52) -/

section
variable (op idx val rsv : Byte)

@[simp] theorem fieldOp_ofFields : fieldOp (ofFields op idx val rsv) = op := by
  calc BitVec.extractLsb' 24 8 (op ++ idx ++ val ++ rsv)
      = BitVec.extractLsb' 16 8 (op ++ idx ++ val) := BitVec.extractLsb'_append_eq_of_le (by decide)
    _ = BitVec.extractLsb' 8 8 (op ++ idx) := BitVec.extractLsb'_append_eq_of_le (by decide)
    _ = op := BitVec.extractLsb'_append_eq_left

@[simp] theorem fieldIdx_ofFields : fieldIdx (ofFields op idx val rsv) = idx := by
  calc BitVec.extractLsb' 16 8 (op ++ idx ++ val ++ rsv)
      = BitVec.extractLsb' 8 8 (op ++ idx ++ val) := BitVec.extractLsb'_append_eq_of_le (by decide)
    _ = BitVec.extractLsb' 0 8 (op ++ idx) := BitVec.extractLsb'_append_eq_of_le (by decide)
    _ = idx := BitVec.extractLsb'_append_eq_right

@[simp] theorem fieldVal_ofFields : fieldVal (ofFields op idx val rsv) = val := by
  calc BitVec.extractLsb' 8 8 (op ++ idx ++ val ++ rsv)
      = BitVec.extractLsb' 0 8 (op ++ idx ++ val) := BitVec.extractLsb'_append_eq_of_le (by decide)
    _ = val := BitVec.extractLsb'_append_eq_right

@[simp] theorem fieldRsv_ofFields : fieldRsv (ofFields op idx val rsv) = rsv :=
  BitVec.extractLsb'_append_eq_right

theorem and_ofFields (op' idx' val' rsv' : Byte) :
    ofFields op idx val rsv &&& ofFields op' idx' val' rsv' =
      ofFields (op &&& op') (idx &&& idx') (val &&& val') (rsv &&& rsv') := by
  unfold ofFields
  rw [← BitVec.and_append, ← BitVec.and_append, ← BitVec.and_append]

end

theorem ofFields_fields (w : Word) :
    ofFields (fieldOp w) (fieldIdx w) (fieldVal w) (fieldRsv w) = w := by
  calc w.extractLsb' 24 8 ++ w.extractLsb' 16 8 ++ w.extractLsb' 8 8 ++ w.extractLsb' 0 8
      = w.extractLsb' 16 16 ++ w.extractLsb' 8 8 ++ w.extractLsb' 0 8 := by
        rw [BitVec.extractLsb'_append_extractLsb'_eq_extractLsb' (by rfl)]
    _ = w.extractLsb' 8 24 ++ w.extractLsb' 0 8 := by
        rw [BitVec.extractLsb'_append_extractLsb'_eq_extractLsb' (by rfl)]
    _ = w := BitVec.extractLsb'_append_extractLsb'

theorem fieldIdx_toNat (w : Word) : (fieldIdx w).toNat = w.toNat / 2 ^ 16 % 256 := by
  rw [fieldIdx, BitVec.extractLsb'_toNat, Nat.shiftRight_eq_div_pow]

theorem fieldVal_toNat (w : Word) : (fieldVal w).toNat = w.toNat / 2 ^ 8 % 256 := by
  rw [fieldVal, BitVec.extractLsb'_toNat, Nat.shiftRight_eq_div_pow]

theorem getLsbD_zero_fieldIdx (w : Word) : (fieldIdx w).getLsbD 0 = w.getLsbD 16 := by
  simp [fieldIdx]

theorem getLsbD_zero_fieldVal (w : Word) : (fieldVal w).getLsbD 0 = w.getLsbD 8 := by
  simp [fieldVal]

/-! ## Line levels (R54) -/

@[simp] theorem levelByte_getElem_zero (b : Bool) : (levelByte b)[0] = b := by
  cases b <;> rfl

/-- The bytes with bits 7:1 zero are those of the two levels. -/
theorem and_fe_eq_zero_iff {b : Byte} : b &&& 0xFE#8 = 0 ↔ levelByte (b.getLsbD 0) = b := by
  revert b; decide

/-! ## The decoder against the encoder (R55, R57) -/

theorem decode_ofFields_rsv_zero (op idx val : Byte) :
    decode (ofFields op idx val 0) = decodeOp op idx val := by
  simp only [decode, fieldOp_ofFields, fieldIdx_ofFields, fieldVal_ofFields, fieldRsv_ofFields, if_true]
  cases decodeOp op idx val <;> rfl

theorem decode_encode (i : Instr) : decode (encode i) = .ok i := by
  cases i with
  | evTimer clk data => rw [encode, decode_ofFields_rsv_zero]; cases clk <;> cases data <;> rfl
  | _ => exact decode_ofFields_rsv_zero ..

theorem freed_eq_ok_iff {zero : Bool} {i j : Instr} :
    freed zero i = .ok j ↔ zero = true ∧ i = j := by
  unfold freed
  split <;> simp [*]

/-- One link of the decoder's chain: it answers with the row of `k`, or the rest of the chain answers. -/
theorem freed_or_rest_of_link {op k : Byte} {zero : Bool} {i j : Instr} {rest : Except DecodeError Instr}
    (h : (if op = k then freed zero j else rest) = .ok i) :
    (op = k ∧ zero = true ∧ j = i) ∨ rest = .ok i := by
  split at h
  next hop => exact .inl ⟨hop, freed_eq_ok_iff.1 h⟩
  next => exact .inr h

/-- What the decoder reads from OP, IDX and VAL has exactly these fields in its word: the fields its row
does not free were found zero. Fourteen rows free whole fields, the last one bit 0 of each. -/
theorem encode_of_decodeOp {op idx val : Byte} {i : Instr} (h : decodeOp op idx val = .ok i) :
    encode i = ofFields op idx val 0 := by
  unfold decodeOp at h
  iterate 14
    obtain ⟨rfl, hzero, rfl⟩ | h := freed_or_rest_of_link h
    · simp_all [encode]
  obtain ⟨rfl, hzero, rfl⟩ | h := freed_or_rest_of_link h
  · obtain ⟨hidx, hval⟩ : idx &&& 0xFE#8 = 0 ∧ val &&& 0xFE#8 = 0 := by simpa using hzero
    rw [encode, and_fe_eq_zero_iff.1 hidx, and_fe_eq_zero_iff.1 hval]; rfl
  · cases h

theorem encode_of_decode {w : Word} {i : Instr} (h : decode w = .ok i) : encode i = w := by
  unfold decode at h
  split at h
  next => cases h
  next hrow =>
    split at h
    next hrsv =>
      cases h
      rw [encode_of_decodeOp hrow, ← hrsv, ofFields_fields]
    next => cases h

/-- The decoder and the encoder are inverse: the legal words are the encodings. -/
theorem decode_eq_ok_iff {w : Word} {i : Instr} : decode w = .ok i ↔ encode i = w :=
  ⟨encode_of_decode, fun h => h ▸ decode_encode i⟩

theorem encode_injective : Function.Injective encode := fun i _ h =>
  Except.ok.inj ((decode_encode i).symm.trans (decode_eq_ok_iff.2 h.symm))

/-! ## The ports (R53) -/

theorem decodeAt_encode (p : Port) (i : Instr) :
    decodeAt p (encode i) = if i.port = p then .ok i else .error .wrongPort := by
  simp [decodeAt, decode_encode, Instr.wellFormedAt]

theorem decodeAt_eq_ok_iff {p : Port} {w : Word} {i : Instr} :
    decodeAt p w = .ok i ↔ encode i = w ∧ i.port = p := by
  constructor
  · intro h
    unfold decodeAt at h
    split at h
    next => cases h
    next hdecode =>
      split at h
      next hport => cases h; exact ⟨encode_of_decode hdecode, eq_of_beq hport⟩
      next => cases h
  · rintro ⟨rfl, rfl⟩
    simp [decodeAt_encode]

/-! ## Words under the masks of R56 -/

@[simp] theorem and_ff (b : Byte) : b &&& 0xFF#8 = b := BitVec.and_allOnes

/-- A word under a mask that keeps OP and RSV, and in IDX and VAL what the row does not free. -/
theorem and_mask_eq_match_iff {w : Word} {op m n : Byte} :
    w &&& ofFields 0xFF#8 m n 0xFF#8 = ofFields op 0 0 0 ↔
      ∃ idx val, idx &&& m = 0 ∧ val &&& n = 0 ∧ ofFields op idx val 0 = w := by
  constructor
  · intro h
    rw [← ofFields_fields w, and_ofFields, and_ff, and_ff] at h
    have hop := congrArg fieldOp h
    have hidx := congrArg fieldIdx h
    have hval := congrArg fieldVal h
    have hrsv := congrArg fieldRsv h
    simp only [fieldOp_ofFields, fieldIdx_ofFields, fieldVal_ofFields, fieldRsv_ofFields]
      at hop hidx hval hrsv
    exact ⟨fieldIdx w, fieldVal w, hidx, hval, by rw [← hop, ← hrsv, ofFields_fields]⟩
  · rintro ⟨idx, val, hidx, hval, rfl⟩
    rw [and_ofFields, and_ff, and_ff, hidx, hval]

section
variable {w : Word} (op : Byte)

theorem and_mask_none_iff :
    w &&& 0xFFFFFFFF#32 = ofFields op 0 0 0 ↔ ofFields op 0 0 0 = w := by
  rw [show w &&& 0xFFFFFFFF#32 = w from BitVec.and_allOnes, eq_comm]

theorem and_mask_val_iff :
    w &&& 0xFFFF00FF#32 = ofFields op 0 0 0 ↔ ∃ val, ofFields op 0 val 0 = w := by
  refine (and_mask_eq_match_iff (m := 0xFF) (n := 0)).trans ?_
  simp

theorem and_mask_idx_iff :
    w &&& 0xFF00FFFF#32 = ofFields op 0 0 0 ↔ ∃ idx, ofFields op idx 0 0 = w := by
  refine (and_mask_eq_match_iff (m := 0) (n := 0xFF)).trans ?_
  simp

theorem and_mask_idx_val_iff :
    w &&& 0xFF0000FF#32 = ofFields op 0 0 0 ↔ ∃ idx val, ofFields op idx val 0 = w := by
  refine (and_mask_eq_match_iff (m := 0) (n := 0)).trans ?_
  simp

theorem and_mask_levels_iff :
    w &&& 0xFFFEFEFF#32 = ofFields op 0 0 0 ↔
      ∃ clk data, ofFields op (levelByte clk) (levelByte data) 0 = w := by
  refine (and_mask_eq_match_iff (m := 0xFE) (n := 0xFE)).trans ⟨?_, ?_⟩
  · rintro ⟨idx, val, hidx, hval, hw⟩
    exact ⟨idx.getLsbD 0, val.getLsbD 0, by
      rwa [and_fe_eq_zero_iff.1 hidx, and_fe_eq_zero_iff.1 hval]⟩
  · rintro ⟨clk, data, hw⟩
    exact ⟨_, _, and_fe_eq_zero_iff.2 (by simp), and_fe_eq_zero_iff.2 (by simp), hw⟩

end

/-! ## The row of an operation (R55, R56) -/

theorem ctorIdx_lt_length_opcodeRows (i : Instr) : i.ctorIdx < opcodeRows.length := by
  cases i <;> exact of_decide_eq_true rfl

/-- The row an operation stands in: the table has one row per constructor of `Instr`, in their order. -/
def rowOf (i : Instr) : OpcodeRow := opcodeRows[i.ctorIdx]'(ctorIdx_lt_length_opcodeRows i)

theorem rowOf_mem (i : Instr) : rowOf i ∈ opcodeRows := List.getElem_mem _

theorem rowOf_mnemonic (i : Instr) : (rowOf i).mnemonic = i.mnemonic := by cases i <;> rfl

theorem rowOf_port (i : Instr) : (rowOf i).port = i.port := by cases i <;> rfl

/-- An operation's word selects its row, whatever its operands. -/
theorem encode_and_maskBits (i : Instr) : encode i &&& (rowOf i).maskBits = (rowOf i).matchBits := by
  cases i with
  | wkey c => exact (and_mask_val_iff 0x04).2 ⟨c, rfl⟩
  | wstrPush c => exact (and_mask_val_iff 0x06).2 ⟨c, rfl⟩
  | clr mask => exact (and_mask_val_iff 0x08).2 ⟨mask, rfl⟩
  | rd idx => exact (and_mask_idx_iff 0x09).2 ⟨idx, rfl⟩
  | wr idx val => exact (and_mask_idx_val_iff 0x0A).2 ⟨idx, val, rfl⟩
  | evTimer clk data => exact (and_mask_levels_iff 0x82).2 ⟨clk, data, rfl⟩
  | _ => rfl

/-- A word that selects a row of the table is the encoding of an operation that stands in it: the bits the
mask leaves out are that operation's operands. -/
theorem exists_encode_of_selected {r : OpcodeRow} {w : Word} (hr : r ∈ opcodeRows)
    (h : w &&& r.maskBits = r.matchBits) : ∃ i, encode i = w ∧ rowOf i = r := by
  simp only [opcodeRows, List.mem_cons, List.not_mem_nil, or_false] at hr
  rcases hr with rfl | rfl | rfl | rfl | rfl | rfl | rfl | rfl | rfl | rfl | rfl | rfl | rfl | rfl | rfl
  · exact ⟨.nop, (and_mask_none_iff 0x00).1 h, rfl⟩
  · exact ⟨.pop, (and_mask_none_iff 0x01).1 h, rfl⟩
  · exact ⟨.mread, (and_mask_none_iff 0x02).1 h, rfl⟩
  · exact ⟨.crc, (and_mask_none_iff 0x03).1 h, rfl⟩
  · obtain ⟨c, hw⟩ := (and_mask_val_iff 0x04).1 h
    exact ⟨.wkey c, hw, rfl⟩
  · exact ⟨.wstrClr, (and_mask_none_iff 0x05).1 h, rfl⟩
  · obtain ⟨c, hw⟩ := (and_mask_val_iff 0x06).1 h
    exact ⟨.wstrPush c, hw, rfl⟩
  · exact ⟨.wstrGo, (and_mask_none_iff 0x07).1 h, rfl⟩
  · obtain ⟨mask, hw⟩ := (and_mask_val_iff 0x08).1 h
    exact ⟨.clr mask, hw, rfl⟩
  · obtain ⟨idx, hw⟩ := (and_mask_idx_iff 0x09).1 h
    exact ⟨.rd idx, hw, rfl⟩
  · obtain ⟨idx, val, hw⟩ := (and_mask_idx_val_iff 0x0A).1 h
    exact ⟨.wr idx val, hw, rfl⟩
  · exact ⟨.reset, (and_mask_none_iff 0x0B).1 h, rfl⟩
  · exact ⟨.evRise, (and_mask_none_iff 0x80).1 h, rfl⟩
  · exact ⟨.evFall, (and_mask_none_iff 0x81).1 h, rfl⟩
  · obtain ⟨clk, data, hw⟩ := (and_mask_levels_iff 0x82).1 h
    exact ⟨.evTimer clk data, hw, rfl⟩

/-! ## The statements about words -/

/-- Settles O1: the decoder reads the operation from each constructor's word, and the port test is left. -/
theorem decodeEncodeRoundTrip : Obligations.DecodeEncodeRoundTrip :=
  fun i p => ⟨decode_encode i, decodeAt_encode p i⟩

/-- Settles O2, by the decoder's chain: what a row does not free was found zero. -/
theorem decodedWordIsItsEncoding : Obligations.DecodedWordIsItsEncoding :=
  fun _ _ => encode_of_decode

/-- Settles O3: a decoded word selects its operation's row, and a selected row is that of an operation the
word encodes. -/
theorem decoderAgreesWithMatchAndMask : Obligations.DecoderAgreesWithMatchAndMask := by
  intro w m
  constructor
  · rintro ⟨i, hdecode, rfl⟩
    rw [← encode_of_decode hdecode]
    exact ⟨rowOf i, rowOf_mem i, rowOf_mnemonic i, encode_and_maskBits i⟩
  · rintro ⟨r, hr, rfl, hselects⟩
    obtain ⟨i, rfl, rfl⟩ := exists_encode_of_selected hr hselects
    exact ⟨i, decode_encode i, (rowOf_mnemonic i).symm⟩

/-- Settles O4: both rows are that of the one operation the word encodes. -/
theorem opcodeRowsDoNotOverlap : Obligations.OpcodeRowsDoNotOverlap := by
  intro w r hr q hq hwr hwq
  obtain ⟨i, rfl, rfl⟩ := exists_encode_of_selected hr (eq_of_beq hwr)
  obtain ⟨j, hij, rfl⟩ := exists_encode_of_selected hq (eq_of_beq hwq)
  rw [encode_injective hij]

/-- Settles O5: the word is the encoding of the operation, and the encoding has the operand in its field. -/
theorem operandsAreTheWordsFields : Obligations.OperandsAreTheWordsFields := by
  intro w i hdecode
  obtain rfl := encode_of_decode hdecode
  simp only [← fieldIdx_toNat, ← fieldVal_toNat, ← getLsbD_zero_fieldIdx, ← getLsbD_zero_fieldVal]
  refine ⟨?_, ?_, ?_, ?_, ?_, ?_⟩
  · rintro c rfl; simp [encode]
  · rintro c rfl; simp [encode]
  · rintro m rfl; simp [encode]
  · rintro r rfl; simp [encode]
  · rintro r v rfl; simp [encode]
  · rintro c d rfl; simp [encode]

/-- Settles O6: the legal words are encodings; the decoder runs on the illegal ones. -/
theorem tableWordsDecode : Obligations.TableWordsDecode :=
  ⟨decode_encode (.wkey 0x35#8), decode_encode (.wstrPush 0x2F#8), decode_encode (.clr 0x05#8),
    decode_encode (.rd 0x12#8), decode_encode (.wr 0x0B#8 0x03#8), decode_encode (.evTimer true false),
    decode_encode (.evTimer false true), rfl, rfl, rfl⟩

/-! ## A step on an illegal word (R53, R57) -/

namespace Machine

theorem runPresented_of_decodeAt_ne_ok {p : Presented} (h : ∀ i, decodeAt p.port p.word ≠ .ok i)
    (s : State) : runPresented p s = illegalWord (latchInputs p s) := by
  unfold runPresented
  split
  next i hi => exact absurd hi (h i)
  next => rfl

/-- Settles O8: the row of an operation the port took would be one of the port's format that the word
selects, so the port takes none. -/
theorem illegalWordChangesNothing : Obligations.IllegalWordChangesNothing := by
  intro s p rest hpending hillegal
  have hrejected (i : Instr) : decodeAt p.port p.word ≠ .ok i := by
    intro hi
    obtain ⟨hword, hport⟩ := decodeAt_eq_ok_iff.1 hi
    refine hillegal (rowOf i) (rowOf_mem i) ((rowOf_port i).trans hport) ?_
    rw [← hword, encode_and_maskBits]
  rw [step_of_pending_cons hpending, runPresented_of_decodeAt_ne_ok hrejected]
  rfl

end Machine

end Sys2Proof
end

section
/-! SUPPORT. The bit sampler (spec/40_bit_sampler.md): the three events of the clock line, the ways a panel
and a module bit go, and what a stream of bits assembles in its accumulator; and the proofs of O26 to O28 and
of O30 to O33. -/

namespace Sys2Proof.Machine

/-! ## The clock edges and the timer (R66..R68) -/

/-- Settles O26: the meaning of EV_RISE, whose word has no operand. -/
theorem risingEdge : Obligations.RisingEdge := fun _ => ⟨rfl, rfl⟩

/-- Settles O27: the meaning of EV_FALL, whose word has no operand. -/
theorem fallingEdge : Obligations.FallingEdge := fun _ => ⟨rfl, rfl⟩

theorem exec_evTimer (clk data : Bool) (s : State) :
    exec (.evTimer clk data) s = .next (setResult (timerExpiry clk data (beginStep s)) 0x00#8) := rfl

/-- The gap comparison on numbers: strictly above `T_GAP_US` (R68, R77). -/
theorem gapSeen_iff {p : Params} {b : BitSampler} :
    gapSeen p b = true ↔ p.timing.t_gap_us.toNat < b.clk_high_time.toNat := by
  simp [gapSeen, BitVec.lt_def]

section
variable {s : State}

theorem timerExpiry_of_unarmed (h : s.bs.tmr_armed = false) (clk data : Bool) :
    timerExpiry clk data s = s := by
  simpa [h] using timerExpiry_cases clk data s

theorem timerExpiry_of_high (h : s.bs.tmr_armed = true) (data : Bool) :
    timerExpiry true data s = samplePanel data { s with bs := { s.bs with tmr_armed := false } } := by
  simpa [h] using timerExpiry_cases true data s

theorem timerExpiry_of_gap (h : s.bs.tmr_armed = true) (hgap : gapSeen s.cfg s.bs = true)
    (data : Bool) : timerExpiry false data s =
      sampleModule data (complete { s with bs := { s.bs with tmr_armed := false } }) := by
  simpa [h, hgap] using timerExpiry_cases false data s

theorem timerExpiry_of_no_gap (h : s.bs.tmr_armed = true) (hgap : ¬gapSeen s.cfg s.bs = true)
    (data : Bool) : timerExpiry false data s =
      sampleModule data { s with bs := { s.bs with tmr_armed := false } } := by
  simpa [h, hgap] using timerExpiry_cases false data s
end

/-- Settles O28: the expiry unarmed, with the clock high, and with it low after a gap or without one. Neither
a completion nor a sample reads the step's result, which the statement writes first and the model last. -/
theorem evTimer_timerExpiry : Obligations.TimerExpiry := by
  intro s d
  dsimp only
  rw [← gapSeen_iff]
  refine ⟨fun hoff c => ?_, fun hon => ?_, fun hon hgap => ?_, fun hon hgap => ?_,
    fun c => encode_and_maskBits (.evTimer c d)⟩
  · rw [exec_evTimer, timerExpiry_of_unarmed (s := beginStep s) hoff]; rfl
  · rw [exec_evTimer, timerExpiry_of_high (s := beginStep s) hon]; rfl
  · rw [exec_evTimer, timerExpiry_of_gap (s := beginStep s) hon hgap]; rfl
  · rw [exec_evTimer, timerExpiry_of_no_gap (s := beginStep s) hon hgap]; rfl

/-! ## The ways a panel bit goes (R69..R71) -/

section
variable {b : BitSampler} (d : Bool)

theorem panelBit_of_stop (hstop : b.p_bit_total.toNat = 8) :
    panelBit d b = { b with
      acc_p := setByte b.acc_p 1 0x01#8, p_byte_count := b.p_byte_count + 1, p_bit_count := 0,
      p_bit_total := satIncr b.p_bit_total } := by
  simp [panelBit, panelStop, Config.stopValue, hstop]

theorem panelBit_of_shift (hstop : b.p_bit_total.toNat ≠ 8) (hroom : b.p_byte_count.toNat < 16)
    (hbits : b.p_bit_count.toNat < 7) :
    panelBit d b = { b with
      acc_p := setByte b.acc_p b.p_byte_count.toNat (shiftIn (byteAt b.acc_p b.p_byte_count.toNat) d)
      p_bit_count := b.p_bit_count + 1, p_bit_total := satIncr b.p_bit_total } := by
  simp [panelBit, panelShift, hstop, hroom, hbits]

theorem panelBit_of_finish (hstop : b.p_bit_total.toNat ≠ 8) (hroom : b.p_byte_count.toNat < 16)
    (hbits : ¬b.p_bit_count.toNat < 7) :
    panelBit d b = { b with
      acc_p := setByte b.acc_p b.p_byte_count.toNat (shiftIn (byteAt b.acc_p b.p_byte_count.toNat) d)
      p_bit_count := 0, p_byte_count := b.p_byte_count + 1, p_bit_total := satIncr b.p_bit_total } := by
  simp [panelBit, panelShift, hstop, hroom, hbits]

theorem panelBit_of_full (hstop : b.p_bit_total.toNat ≠ 8) (hfull : ¬b.p_byte_count.toNat < 16) :
    panelBit d b = { b with p_bit_total := satIncr b.p_bit_total } := by
  simp [panelBit, hstop, hfull]

@[simp] theorem panelBit_acc_m : (panelBit d b).acc_m = b.acc_m := by
  unfold panelBit panelStop panelShift
  dsimp only
  split_ifs <;> rfl
end

/-- Settles O30: the stop bit and the bit beyond the storage are two of the ways a panel bit goes. -/
theorem stopBitAndStorageLimit : Obligations.StopBitAndStorageLimit := by
  intro d b
  constructor
  · intro hstop
    rw [panelBit_of_stop d (by simp [hstop]), hstop]
    rfl
  · intro hfull hstop
    have hcount : satIncr b.p_bit_total = BitVec.ofNat 8 (min (b.p_bit_total.toNat + 1) 255) := by
      rw [← satIncr_toNat, BitVec.ofNat_toNat, BitVec.setWidth_eq]
    rw [panelBit_of_full d (by bv_omega) (by simp [hfull]), hcount]

/-! ## The ways a module bit goes (R72..R75) -/

section
variable {b : BitSampler} (p : Params) (d : Bool)

theorem moduleShift_of_stop (hstop : b.m_bit_total.toNat = 7) :
    moduleShift p d b = { b with
      acc_m := setByte (setByte b.acc_m b.m_byte_count.toNat
        (shiftIn (byteAt b.acc_m b.m_byte_count.toNat) (moduleLevel p d))) 1 0x01#8
      m_bit_count := 0, m_byte_count := b.m_byte_count + 2, m_bit_total := satIncr b.m_bit_total
      m_detect := b.m_detect || !d } := by
  simp [moduleShift, Config.stopValue, hstop]

theorem moduleShift_of_shift (hstop : b.m_bit_total.toNat ≠ 7) (hbits : b.m_bit_count.toNat < 7) :
    moduleShift p d b = { b with
      acc_m := setByte b.acc_m b.m_byte_count.toNat
        (shiftIn (byteAt b.acc_m b.m_byte_count.toNat) (moduleLevel p d))
      m_bit_count := b.m_bit_count + 1, m_bit_total := satIncr b.m_bit_total
      m_detect := b.m_detect || !d } := by
  simp [moduleShift, hstop, hbits]

theorem moduleShift_of_finish (hstop : b.m_bit_total.toNat ≠ 7) (hbits : ¬b.m_bit_count.toNat < 7) :
    moduleShift p d b = { b with
      acc_m := setByte b.acc_m b.m_byte_count.toNat
        (shiftIn (byteAt b.acc_m b.m_byte_count.toNat) (moduleLevel p d))
      m_bit_count := 0, m_byte_count := b.m_byte_count + 1, m_bit_total := satIncr b.m_bit_total
      m_detect := b.m_detect || !d } := by
  simp [moduleShift, hstop, hbits]

theorem moduleShift_frame : (moduleShift p d b).acc_p = b.acc_p ∧
    (moduleShift p d b).m_detect = (b.m_detect || !d) ∧
    (moduleShift p d b).m_bit_total = satIncr b.m_bit_total := by
  unfold moduleShift
  dsimp only
  split_ifs <;> exact ⟨rfl, rfl, rfl⟩

theorem moduleShift_counters (h : ModuleCounters b) (hroom : b.m_byte_count.toNat < 16) :
    ModuleCounters (moduleShift p d b) := by
  have htotal := satIncr_toNat b.m_bit_total
  unfold ModuleCounters at h ⊢
  by_cases hstop : b.m_bit_total.toNat = 7
  · rw [moduleShift_of_stop p d hstop]; bv_omega
  by_cases hbits : b.m_bit_count.toNat < 7
  · rw [moduleShift_of_shift p d hstop hbits]; bv_omega
  · rw [moduleShift_of_finish p d hstop hbits]; bv_omega
end

theorem moduleGate_iff {modEn : Bool} {depth : Nat} {b : BitSampler} :
    moduleGate modEn depth b = true ↔ modEn = true ∧ depth ≤ 1 ∧ b.m_byte_count.toNat < 16 := by
  simp [moduleGate, and_assoc]

/-- Settles O33: the gate is the statement's condition, and what it lets through is counted. -/
theorem moduleGateDecidesCapture : Obligations.ModuleGateDecidesCapture := by
  intro p modEn depth d b
  obtain ⟨-, -, htotal⟩ := moduleShift_frame (b := b) p d
  simp only [moduleBit, moduleGate_iff]
  split
  · exact ⟨rfl, by rw [htotal, satIncr_toNat]⟩
  · rfl

/-! ## Bits into bytes (R39) -/

/-- The bits shifted into a byte so far, right-aligned. -/
def byteOf (bits : List Bool) : Byte := BitVec.ofNat 8 (bitsValue bits)

theorem bitsValue_append_singleton (bits : List Bool) (d : Bool) :
    bitsValue (bits ++ [d]) = 2 * bitsValue bits + d.toNat := by
  simp [bitsValue]

theorem bitsValue_lt (bits : List Bool) : bitsValue bits < 2 ^ bits.length := by
  induction bits using List.reverseRecOn with
  | nil => decide
  | append_singleton bits d ih =>
    have hd := Bool.toNat_le d
    rw [bitsValue_append_singleton, List.length_append, List.length_singleton, Nat.pow_succ]
    omega

theorem byteOf_toNat {bits : List Bool} (h : bits.length ≤ 8) : (byteOf bits).toNat = bitsValue bits := by
  have hpow : 2 ^ bits.length ≤ 2 ^ 8 := Nat.pow_le_pow_right (by decide) h
  exact Nat.mod_eq_of_lt ((bitsValue_lt bits).trans_le hpow)

theorem shiftIn_byteOf (bits : List Bool) (d : Bool) : shiftIn (byteOf bits) d = byteOf (bits ++ [d]) := by
  apply BitVec.eq_of_toNat_eq
  rw [shiftIn_toNat, byteOf, byteOf, bitsValue_append_singleton, BitVec.toNat_ofNat, BitVec.toNat_ofNat]
  omega

@[simp] theorem byteOf_msbFirst (c : Byte) : byteOf (msbFirst c) = c := by
  revert c; decide

@[simp] theorem length_msbFirst (c : Byte) : (msbFirst c).length = 8 := by simp [msbFirst]

/-! ## An accumulator and its two counters -/

/-- A last zero is not seen by a read that gives zero beyond the end. -/
theorem getD_append_zero (l : List Byte) (i : Nat) : (l ++ [0x00#8]).getD i 0x00#8 = l.getD i 0x00#8 := by
  rcases Nat.lt_trichotomy i l.length with hi | rfl | hi
  · exact List.getD_append _ _ _ _ hi
  · simp
  · rw [List.getD_eq_default _ _ hi.le, List.getD_eq_default]
    simpa using hi

/-- An accumulator with its byte and its bit counter holds the bytes `full` and, right-aligned in the next
slot, the bits `part`; it is zero beyond (R38). -/
structure Assembled (f : Frame) (bytes : BitVec 5) (bits : BitVec 3) (full : List Byte)
    (part : List Bool) : Prop where
  data : ∀ i, byteAt f i = (full ++ [byteOf part]).getD i 0x00#8
  bytes : bytes.toNat = full.length
  bits : bits.toNat = part.length

namespace Assembled
variable {f : Frame} {bytes : BitVec 5} {bits : BitVec 3} {full : List Byte} {part : List Bool}

theorem empty : Assembled zeroFrame 0 0 [] [] where
  data i := by cases i <;> simp [byteOf, bitsValue]
  bytes := rfl
  bits := rfl

theorem byteAt_full (h : Assembled f bytes bits full part) {i : Nat} (hi : i < full.length) :
    byteAt f i = full.getD i 0x00#8 := by
  rw [h.data, List.getD_append _ _ _ _ hi]

theorem byteAt_part (h : Assembled f bytes bits full part) : byteAt f full.length = byteOf part := by
  simp [h.data]

theorem byteAt_beyond (h : Assembled f bytes bits full part) {i : Nat} (hi : full.length < i) :
    byteAt f i = 0x00#8 := by
  rw [h.data, List.getD_eq_default]
  simpa using hi

/-- With no bit of a further byte, the frame is the complete bytes. -/
theorem byteAt_whole (h : Assembled f bytes bits full []) (i : Nat) : byteAt f i = full.getD i 0x00#8 :=
  (h.data i).trans (getD_append_zero full i)

/-- Another byte in the current slot. -/
theorem data_setByte (h : Assembled f bytes bits full part) (hroom : full.length < 16) (x : Byte) (i : Nat) :
    byteAt (setByte f full.length x) i = (full ++ [x]).getD i 0x00#8 := by
  rw [byteAt_setByte]
  rcases Nat.lt_trichotomy i full.length with hi | rfl | hi
  · rw [if_neg (by omega), h.byteAt_full hi, List.getD_append _ _ _ _ hi]
  · simp [hroom]
  · rw [if_neg (by omega), h.byteAt_beyond hi, List.getD_eq_default]
    simpa using hi

/-- The current slot with one more bit in it. -/
theorem data_shiftIn (h : Assembled f bytes bits full part) (hroom : full.length < 16) (d : Bool) (i : Nat) :
    byteAt (setByte f bytes.toNat (shiftIn (byteAt f bytes.toNat) d)) i =
      (full ++ [byteOf (part ++ [d])]).getD i 0x00#8 := by
  rw [h.bytes, h.byteAt_part, shiftIn_byteOf]
  exact h.data_setByte hroom _ i

/-- One more bit of the current byte. -/
theorem shift (h : Assembled f bytes bits full part) (hroom : full.length < 16) (hbits : bits.toNat < 7)
    (d : Bool) : Assembled (setByte f bytes.toNat (shiftIn (byteAt f bytes.toNat) d)) bytes (bits + 1)
      full (part ++ [d]) where
  data := h.data_shiftIn hroom d
  bytes := h.bytes
  bits := by
    have := h.bits
    rw [List.length_append, List.length_singleton]
    bv_omega

/-- The bit that completes the current byte. -/
theorem finish (h : Assembled f bytes bits full part) (hroom : full.length < 16) (d : Bool) :
    Assembled (setByte f bytes.toNat (shiftIn (byteAt f bytes.toNat) d)) (bytes + 1) 0
      (full ++ [byteOf (part ++ [d])]) [] where
  data i := (h.data_shiftIn hroom d i).trans (getD_append_zero _ i).symm
  bytes := by
    have := h.bytes
    rw [List.length_append, List.length_singleton]
    bv_omega
  bits := rfl

/-- The stop slot, written after the command byte (R70, R74). -/
theorem stop {c : Byte} (h : Assembled f bytes bits [c] []) :
    Assembled (setByte f 1 0x01#8) (bytes + 1) 0 [c, 0x01#8] [] where
  data i := (h.data_setByte (by simp) 0x01#8 i).trans (getD_append_zero _ i).symm
  bytes := by
    have := h.bytes
    simp only [List.length_cons, List.length_nil] at this ⊢
    bv_omega
  bits := rfl

end Assembled

/-! ## A stream of bits, chunk by chunk -/

section
variable {step : BitSampler → Bool → BitSampler} {R : BitSampler → List Byte → List Bool → Prop}

/-- Bits that do not complete a byte, where every single one shifts into it. -/
theorem foldl_part {full : List Byte}
    (hshift : ∀ b part d, R b full part → part.length < 7 → R (step b d) full (part ++ [d]))
    {b : BitSampler} {part bits : List Bool} (h : R b full part) (hlen : part.length + bits.length < 8) :
    R (bits.foldl step b) full (part ++ bits) := by
  induction bits generalizing b part with
  | nil => simpa using h
  | cons d bits ih =>
    rw [List.length_cons] at hlen
    have hnext := ih (hshift b part d h (by omega)) (by simp; omega)
    rwa [List.append_assoc] at hnext

/-- Eight bits of a byte, where the first seven shift into it and the eighth leaves the bytes `done`. -/
theorem foldl_byte {full : List Byte} {done : Byte → List Byte}
    (hshift : ∀ b part d, R b full part → part.length < 7 → R (step b d) full (part ++ [d]))
    (hfinish : ∀ b part d, R b full part → part.length = 7 →
      R (step b d) (done (byteOf (part ++ [d]))) [])
    {b : BitSampler} {bits : List Bool} (h : R b full []) (hlen : bits.length = 8) :
    R (bits.foldl step b) (done (byteOf bits)) [] := by
  obtain rfl | ⟨part, d, rfl⟩ := bits.eq_nil_or_concat
  · simp at hlen
  · simp only [List.concat_eq_append, List.length_append, List.length_singleton] at hlen ⊢
    rw [List.foldl_append]
    exact hfinish _ part d (foldl_part hshift h (by simp; omega)) (by omega)

/-- A run of payload bytes, where each one goes to the next slot. -/
theorem foldl_payload
    (hbyte : ∀ b full c, R b full [] → 2 ≤ full.length → full.length < 16 →
      R ((msbFirst c).foldl step b) (full ++ [c]) [])
    {b : BitSampler} {full payload : List Byte} (h : R b full []) (hstart : 2 ≤ full.length)
    (hlen : full.length + payload.length ≤ 16) :
    R ((payload.flatMap msbFirst).foldl step b) (full ++ payload) [] := by
  induction payload generalizing b full with
  | nil => simpa using h
  | cons c payload ih =>
    rw [List.length_cons] at hlen
    have hnext := ih (hbyte b full c h hstart (by omega)) (by simp; omega) (by simp; omega)
    rwa [List.append_assoc, ← List.foldl_append, ← List.flatMap_cons] at hnext
end

/-! ## The panel stream (R69..R71) -/

/-- The panel accumulator holds the bytes `full` and the bits `part`, and the total counts them: eight for
each byte, and one for the stop bit where slot 1 takes a byte. -/
structure PanelHolds (b : BitSampler) (full : List Byte) (part : List Bool) : Prop where
  acc : Assembled b.acc_p b.p_byte_count b.p_bit_count full part
  total : (full.length ≤ 1 ∧ b.p_bit_total.toNat = 8 * full.length + part.length) ∨
    (2 ≤ full.length ∧ b.p_bit_total.toNat + 7 = 8 * full.length + part.length)

namespace PanelHolds
variable {b : BitSampler} {full : List Byte} {part : List Bool}

theorem empty (hacc : b.acc_p = zeroFrame) (htotal : b.p_bit_total = 0) (hbits : b.p_bit_count = 0)
    (hbytes : b.p_byte_count = 0) : PanelHolds b [] [] where
  acc := by rw [hacc, hbits, hbytes]; exact .empty
  total := by simp [htotal]

theorem shift (h : PanelHolds b full part) (hfull : full.length ≠ 1) (hroom : full.length < 16)
    (hpart : part.length < 7) (d : Bool) : PanelHolds (panelBit d b) full (part ++ [d]) := by
  obtain ⟨hacc, htotal⟩ := h
  have hbytes := hacc.bytes
  have hbits := hacc.bits
  rw [panelBit_of_shift d (by omega) (by omega) (by omega)]
  refine ⟨hacc.shift hroom (by omega) d, ?_⟩
  rw [satIncr_toNat, List.length_append, List.length_singleton]
  omega

theorem finish (h : PanelHolds b full part) (hfull : full.length ≠ 1) (hroom : full.length < 16)
    (hpart : part.length = 7) (d : Bool) :
    PanelHolds (panelBit d b) (full ++ [byteOf (part ++ [d])]) [] := by
  obtain ⟨hacc, htotal⟩ := h
  have hbytes := hacc.bytes
  have hbits := hacc.bits
  rw [panelBit_of_finish d (by omega) (by omega) (by omega)]
  refine ⟨hacc.finish hroom d, ?_⟩
  rw [satIncr_toNat, List.length_append, List.length_singleton, List.length_nil]
  omega

/-- The stop bit, whatever its level (R70). -/
theorem stop {c : Byte} (h : PanelHolds b [c] []) (d : Bool) :
    PanelHolds (panelBit d b) [c, 0x01#8] [] := by
  obtain ⟨hacc, htotal⟩ := h
  have hstop : b.p_bit_total.toNat = 8 := by simpa using htotal
  rw [panelBit_of_stop d hstop]
  exact ⟨hacc.stop, by simp [satIncr_toNat, hstop]⟩

theorem foldl_part (h : PanelHolds b full []) (hfull : full.length ≠ 1) (hroom : full.length < 16)
    {bits : List Bool} (hlen : bits.length < 8) :
    PanelHolds (bits.foldl (fun b d => panelBit d b) b) full bits :=
  Machine.foldl_part (fun _ _ d hb hpart => hb.shift hfull hroom hpart d) h (by simpa using hlen)

theorem foldl_byte (h : PanelHolds b full []) (hfull : full.length ≠ 1) (hroom : full.length < 16)
    {bits : List Bool} (hlen : bits.length = 8) :
    PanelHolds (bits.foldl (fun b d => panelBit d b) b) (full ++ [byteOf bits]) [] :=
  Machine.foldl_byte (done := fun c => full ++ [c])
    (fun _ _ d hb hpart => hb.shift hfull hroom hpart d)
    (fun _ _ d hb hpart => hb.finish hfull hroom hpart d) h hlen

theorem foldl_payload (h : PanelHolds b full []) (hfull : 2 ≤ full.length) {payload : List Byte}
    (hlen : full.length + payload.length ≤ 16) :
    PanelHolds ((payload.flatMap msbFirst).foldl (fun b d => panelBit d b) b) (full ++ payload) [] :=
  Machine.foldl_payload (R := PanelHolds) (fun _ full c hb hfull hroom => by
    simpa using hb.foldl_byte (Nat.ne_of_gt hfull) hroom (length_msbFirst c)) h hfull hlen

/-- The command byte, the stop bit, the payload. -/
theorem foldl_panelLevels (h : PanelHolds b [] []) (c : Byte) (stop : Bool) {payload : List Byte}
    (hlen : payload.length ≤ 14) :
    PanelHolds ((panelLevels c stop payload).foldl (fun b d => panelBit d b) b)
      (c :: 0x01#8 :: payload) [] := by
  have hcommand : PanelHolds ((msbFirst c).foldl (fun b d => panelBit d b) b) [c] [] := by
    simpa using h.foldl_byte (by decide) (by decide) (length_msbFirst c)
  rw [panelLevels, List.foldl_append, List.foldl_cons]
  exact (hcommand.stop stop).foldl_payload (by simp) (by simp; omega)

end PanelHolds

theorem foldl_panelBit_acc_m (bits : List Bool) (b : BitSampler) :
    (bits.foldl (fun b d => panelBit d b) b).acc_m = b.acc_m := by
  induction bits generalizing b with
  | nil => rfl
  | cons d bits ih => rw [List.foldl_cons, ih, panelBit_acc_m]

/-- A whole panel stream: the bits of an incomplete byte follow while there is a slot for them (R71). -/
theorem PanelHolds.foldl_panelLevels_tail {b : BitSampler} (h : PanelHolds b [] []) (c : Byte) (stop : Bool)
    {payload : List Byte} {tail : List Bool} (hpayload : payload.length ≤ 14) (htail : tail.length < 8)
    (hfull : payload.length = 14 → tail = []) :
    PanelHolds ((panelLevels c stop payload ++ tail).foldl (fun b d => panelBit d b) b)
      (c :: 0x01#8 :: payload) tail := by
  have hwhole := h.foldl_panelLevels c stop hpayload
  rcases Nat.lt_or_eq_of_le hpayload with hroom | heq
  · rw [List.foldl_append]
    exact hwhole.foldl_part (by simp) (by simp; omega) htail
  · rw [hfull heq, List.append_nil]
    exact hwhole

/-- Settles O31: up to seven bits stay in slot 0 and the eighth completes it; beyond, the frame's bytes are
complete and the tail stays in the slot after them. -/
theorem panelStreamAssemblesTheFrame : Obligations.PanelStreamAssemblesTheFrame := by
  intro b hacc htotal hbits hbytes
  have hempty := PanelHolds.empty hacc htotal hbits hbytes
  constructor
  · intro bits hlen e
    rcases Nat.lt_or_eq_of_le hlen with hlt | heq
    · obtain ⟨h, ht⟩ : PanelHolds e [] bits := hempty.foldl_part (by decide) (by decide) hlt
      have hslot : byteAt e.acc_p 0 = byteOf bits := h.byteAt_part
      refine ⟨by rw [hslot, byteOf_toNat hlen], fun i hi => h.byteAt_beyond hi, ?_, ?_, ?_,
        foldl_panelBit_acc_m bits b⟩
      · simp [h.bytes, Nat.div_eq_of_lt hlt]
      · simp [h.bits, Nat.mod_eq_of_lt hlt]
      · simpa using ht
    · obtain ⟨h, ht⟩ : PanelHolds e [byteOf bits] [] := hempty.foldl_byte (by decide) (by decide) heq
      have hslot : byteAt e.acc_p 0 = byteOf bits := h.byteAt_full Nat.one_pos
      refine ⟨by rw [hslot, byteOf_toNat hlen], fun i hi => ?_, ?_, ?_, ?_, foldl_panelBit_acc_m bits b⟩
      · rw [h.byteAt_whole, List.getD_eq_default _ _ hi]
      · simp [h.bytes, heq]
      · simp [h.bits, heq]
      · simpa [heq] using ht
  · intro c stop payload tail hpayload htail hfull e
    obtain ⟨h, ht⟩ : PanelHolds e (c :: 0x01#8 :: payload) tail :=
      hempty.foldl_panelLevels_tail c stop hpayload htail hfull
    have hpart : byteAt e.acc_p (payload.length + 2) = byteOf tail := h.byteAt_part
    refine ⟨h.byteAt_full (by simp), h.byteAt_full (by simp), fun i hi => ?_, ?_,
      fun i hi => h.byteAt_beyond hi, ?_, h.bits, ?_, foldl_panelBit_acc_m _ b⟩
    · simpa using h.byteAt_full (i := i + 2) (by simpa using hi)
    · rw [hpart, byteOf_toNat htail.le]
    · rw [h.bytes, List.length_cons, List.length_cons]; omega
    · simp only [List.length_cons] at ht; omega

/-! ## The module stream (R72..R75) -/

/-- The module accumulator holds the bytes `full` and the bits `part`, its counters in agreement. -/
def ModuleHolds (b : BitSampler) (full : List Byte) (part : List Bool) : Prop :=
  Assembled b.acc_m b.m_byte_count b.m_bit_count full part ∧ ModuleCounters b

/-- The line level of a bit, and the bit of a line level: the same inversion, or none (R73, D9). -/
@[simp] theorem moduleLevel_moduleLevel (p : Params) (bit : Bool) :
    moduleLevel p (moduleLevel p bit) = bit := by
  unfold moduleLevel
  split <;> simp

namespace ModuleHolds
variable {b : BitSampler} {full : List Byte} {part : List Bool}

theorem empty (hacc : b.acc_m = zeroFrame) (htotal : b.m_bit_total = 0) (hbits : b.m_bit_count = 0)
    (hbytes : b.m_byte_count = 0) : ModuleHolds b [] [] := by
  refine ⟨?_, .inl (by simp [htotal, hbits, hbytes])⟩
  rw [hacc, hbits, hbytes]
  exact .empty

section
variable (p : Params) (bit : Bool)

theorem shift (h : ModuleHolds b full part) (hroom : full.length < 16) (hpart : part.length < 7) :
    ModuleHolds (moduleShift p (moduleLevel p bit) b) full (part ++ [bit]) := by
  obtain ⟨hacc, hcounters⟩ := h
  have hbytes := hacc.bytes
  have hbits := hacc.bits
  refine ⟨?_, moduleShift_counters p _ hcounters (by omega)⟩
  unfold ModuleCounters at hcounters
  rw [moduleShift_of_shift p _ (by omega) (by omega), moduleLevel_moduleLevel]
  exact hacc.shift hroom (by omega) bit

theorem finish (h : ModuleHolds b full part) (hfull : 2 ≤ full.length) (hroom : full.length < 16)
    (hpart : part.length = 7) :
    ModuleHolds (moduleShift p (moduleLevel p bit) b) (full ++ [byteOf (part ++ [bit])]) [] := by
  obtain ⟨hacc, hcounters⟩ := h
  have hbytes := hacc.bytes
  have hbits := hacc.bits
  refine ⟨?_, moduleShift_counters p _ hcounters (by omega)⟩
  unfold ModuleCounters at hcounters
  rw [moduleShift_of_finish p _ (by omega) (by omega), moduleLevel_moduleLevel]
  exact hacc.finish hroom bit

/-- The eighth bit completes byte 0 and forces the stop slot (R74). -/
theorem stop (h : ModuleHolds b [] part) (hpart : part.length = 7) :
    ModuleHolds (moduleShift p (moduleLevel p bit) b) [byteOf (part ++ [bit]), 0x01#8] [] := by
  obtain ⟨hacc, hcounters⟩ := h
  have hbytes := hacc.bytes
  have hbits := hacc.bits
  rw [List.length_nil] at hbytes
  refine ⟨?_, moduleShift_counters p _ hcounters (by omega)⟩
  unfold ModuleCounters at hcounters
  rw [moduleShift_of_stop p _ (by omega), moduleLevel_moduleLevel]
  have hstop := (hacc.finish (by decide) bit).stop
  rwa [BitVec.add_assoc] at hstop
end

theorem foldl_command (h : ModuleHolds b [] []) (p : Params) (c : Byte) :
    ModuleHolds ((msbFirst c).foldl (fun b bit => moduleShift p (moduleLevel p bit) b) b)
      [c, 0x01#8] [] := by
  simpa using Machine.foldl_byte (done := fun c => [c, 0x01#8])
    (fun _ _ bit hb hpart => hb.shift p bit (by decide) hpart)
    (fun _ _ bit hb hpart => hb.stop p bit hpart) h (length_msbFirst c)

theorem foldl_byte (h : ModuleHolds b full []) (hfull : 2 ≤ full.length) (hroom : full.length < 16)
    (p : Params) (c : Byte) :
    ModuleHolds ((msbFirst c).foldl (fun b bit => moduleShift p (moduleLevel p bit) b) b)
      (full ++ [c]) [] := by
  simpa using Machine.foldl_byte (done := fun c => full ++ [c])
    (fun _ _ bit hb hpart => hb.shift p bit hroom hpart)
    (fun _ _ bit hb hpart => hb.finish p bit hfull hroom hpart) h (length_msbFirst c)

/-- A whole module frame, each bit through its line level. -/
theorem foldl_frame (h : ModuleHolds b [] []) (p : Params) (c : Byte) {payload : List Byte}
    (hlen : payload.length ≤ 14) :
    ModuleHolds ((msbFirst c ++ payload.flatMap msbFirst).foldl
      (fun b bit => moduleShift p (moduleLevel p bit) b) b) (c :: 0x01#8 :: payload) [] := by
  rw [List.foldl_append]
  exact Machine.foldl_payload (R := ModuleHolds)
    (fun _ _ x hb hfull hroom => hb.foldl_byte hfull hroom p x) (h.foldl_command p c) (by simp)
    (by simp; omega)

end ModuleHolds

/-- While the gate's storage condition holds, every level of a stream is captured (R72, R75). -/
theorem foldl_moduleBit_eq {depth : Nat} (hdepth : depth ≤ 1) (p : Params) {levels : List Bool}
    {b : BitSampler} (h : ModuleCounters b) (hlen : b.m_bit_total.toNat + levels.length ≤ 120) :
    levels.foldl (fun b d => moduleBit p true depth d b) b = levels.foldl (fun b d => moduleShift p d b) b := by
  induction levels generalizing b with
  | nil => rfl
  | cons d levels ih =>
    rw [List.length_cons] at hlen
    have hroom : b.m_byte_count.toNat < 16 := by
      unfold ModuleCounters at h
      omega
    obtain ⟨-, -, htotal⟩ := moduleShift_frame (b := b) p d
    have hopen : moduleBit p true depth d b = moduleShift p d b :=
      if_pos (moduleGate_iff.2 ⟨rfl, hdepth, hroom⟩)
    rw [List.foldl_cons, List.foldl_cons, hopen]
    refine ih (moduleShift_counters p d h hroom) ?_
    rw [htotal, satIncr_toNat]
    omega

theorem foldl_moduleShift_frame (p : Params) (levels : List Bool) (b : BitSampler) :
    (levels.foldl (fun b d => moduleShift p d b) b).acc_p = b.acc_p ∧
      (levels.foldl (fun b d => moduleShift p d b) b).m_detect =
        (b.m_detect || levels.any (fun d => !d)) := by
  induction levels generalizing b with
  | nil => simp
  | cons d levels ih =>
    obtain ⟨hacc, hdetect, -⟩ := moduleShift_frame (b := b) p d
    rw [List.foldl_cons, (ih _).1, (ih _).2, hacc, hdetect, List.any_cons, Bool.or_assoc]
    exact ⟨rfl, rfl⟩

theorem length_flatMap_msbFirst (payload : List Byte) :
    (payload.flatMap msbFirst).length = 8 * payload.length := by
  simp [List.length_flatMap, Nat.mul_comm]

/-- Settles O32: the frame's levels are all captured, and each is the level of the bit it stores. -/
theorem moduleStreamAssemblesTheFrame : Obligations.ModuleStreamAssemblesTheFrame := by
  intro p depth c payload b hdepth hpayload hacc htotal hbits hbytes levels e
  have hempty := ModuleHolds.empty hacc htotal hbits hbytes
  have hlevels : levels = (msbFirst c ++ payload.flatMap msbFirst).map (moduleLevel p) := rfl
  have hcaptured : e = levels.foldl (fun b d => moduleShift p d b) b := by
    refine foldl_moduleBit_eq hdepth p hempty.2 ?_
    rw [hlevels, List.length_map, List.length_append, length_msbFirst, length_flatMap_msbFirst]
    bv_omega
  have hholds : ModuleHolds e (c :: 0x01#8 :: payload) [] := by
    rw [hcaptured, hlevels, List.foldl_map]
    exact hempty.foldl_frame p c hpayload
  obtain ⟨h, hcounters⟩ := hholds
  obtain ⟨hpanel, hdetect⟩ := foldl_moduleShift_frame p levels b
  have hcount : e.m_byte_count.toNat = 2 + payload.length := by
    rw [h.bytes, List.length_cons, List.length_cons]; omega
  have hbits0 := h.bits
  refine ⟨h.byteAt_full (by simp), h.byteAt_full (by simp), fun i => ?_, hcount, ?_, ?_, ?_, ?_⟩
  · rw [h.byteAt_whole]; simp
  · bv_omega
  · unfold ModuleCounters at hcounters
    rw [List.length_nil] at hbits0
    omega
  · rw [hcaptured, hdetect]
  · rw [hcaptured, hpanel]

end Sys2Proof.Machine
end

section
/-! SUPPORT. The frame assembler (spec/41_frame_assembler.md): which frames a completion admits and what it
leaves in the two caches and in the buffer, by the frame's length, its code and the room left; and the proofs
of O29, O34 to O37, O39 and O40. -/

namespace Sys2Proof.Machine

/-! ## What every completion does (R79, R84, R85) -/

/-- Settles O34: presence is written before admission and does not depend on it. -/
theorem completionRecordsPresence : Obligations.CompletionRecordsPresence := complete_bus

theorem holdRelease_of_ne_astHold {w : WriteEngine} (h : w.wr_state ≠ .astHold) (p : Params)
    (en has : Bool) (cmd : Byte) : holdRelease p en has cmd w = w := by
  simpa [h] using holdRelease_cases p en has cmd w

/-- Settles O35: the accumulators are zeroed whatever came before, and the engine sees the hold release
alone. -/
theorem completionClearsTheAccumulators : Obligations.CompletionClearsTheAccumulators := by
  intro s
  refine ⟨rfl, ?_, fun hfree => holdRelease_of_ne_astHold hfree ..⟩
  obtain ⟨st, skip, hwe⟩ := holdRelease_frame s.cfg s.ctl.wr_en (hasCmd s.bs) (byteAt s.bs.acc_p 0) s.we
  rw [complete_we, hwe]

/-- Settles O40: the latch is the statement's choice, its two conditions joined as bits. -/
theorem completionLatchesTheModuleFrame : Obligations.CompletionLatchesTheModuleFrame := by
  intro s
  simp only [complete_out, latchModule, Bool.and_eq_true]

/-! ## Redundancy over all sixteen bytes (R81, R87) -/

/-- A filter that compares sixteen bytes finds the frame redundant: the cache is valid and equal to it. -/
theorem redundantIn_sixteen_iff {c : Cache} {f : Frame} :
    redundantIn c f 16 = true ↔ c.valid = true ∧ ∀ i < 16, byteAt c.data i = byteAt f i := by
  rw [redundantIn, Bool.and_eq_true, Nat.min_self, sameBytes_iff]

theorem cacheAfter_of_redundantIn {c : Cache} {f : Frame} {n : Nat} (h : redundantIn c f n = true) :
    cacheAfter c f n = c := if_pos h

section
variable {p : Params} {acc : Frame} {f : FilterState}

theorem isrRedundant_of_codeA (ha : byteAt acc 0 = p.isr_code_a) :
    IsrRedundant p acc f ↔ redundantIn f.cacheA acc 16 = true := by
  simp [IsrRedundant, redundantIn_sixteen_iff, ha]

theorem isrRedundant_of_codeB (ha : byteAt acc 0 ≠ p.isr_code_a) (hb : byteAt acc 0 = p.isr_code_b) :
    IsrRedundant p acc f ↔ redundantIn f.cacheB acc 16 = true := by
  have hba : p.isr_code_b ≠ p.isr_code_a := hb ▸ ha
  simp [IsrRedundant, redundantIn_sixteen_iff, hb, hba]

/-- A frame of neither code is never redundant on the interrupt path. -/
theorem not_isrRedundant_of_unmonitored (ha : byteAt acc 0 ≠ p.isr_code_a)
    (hb : byteAt acc 0 ≠ p.isr_code_b) : ¬IsrRedundant p acc f := by
  simp [IsrRedundant, ha, hb]
end

/-! ## Admission, by length and code (R78, R80, R81) -/

theorem hasCmd_iff {b : BitSampler} : hasCmd b = true ↔ 8 ≤ b.p_bit_total.toNat := by
  simp [hasCmd]

section
variable {p : Params} {b : BitSampler} {f : FilterState}

theorem admitFrame_of_short (h : b.p_bit_total.toNat < 8) : admitFrame p b f = (.short, f) := by
  have hshort : hasCmd b = false := by simp [← Bool.not_eq_true, hasCmd_iff, h]
  simpa [hshort] using admit_cases p b f

theorem admitFrame_of_codeA (h : 8 ≤ b.p_bit_total.toNat) (ha : byteAt b.acc_p 0 = p.isr_code_a) :
    admitFrame p b f = (admissionOf (redundantIn f.cacheA b.acc_p 16),
      { f with cacheA := cacheAfter f.cacheA b.acc_p 16 }) := by
  simpa [hasCmd_iff.2 h, ha] using admit_cases p b f

theorem admitFrame_of_codeB (h : 8 ≤ b.p_bit_total.toNat) (ha : byteAt b.acc_p 0 ≠ p.isr_code_a)
    (hb : byteAt b.acc_p 0 = p.isr_code_b) :
    admitFrame p b f = (admissionOf (redundantIn f.cacheB b.acc_p 16),
      { f with cacheB := cacheAfter f.cacheB b.acc_p 16 }) := by
  have hba : p.isr_code_b ≠ p.isr_code_a := hb ▸ ha
  simpa [hasCmd_iff.2 h, hb, hba] using admit_cases p b f

theorem admitFrame_of_unmonitored (h : 8 ≤ b.p_bit_total.toNat) (ha : byteAt b.acc_p 0 ≠ p.isr_code_a)
    (hb : byteAt b.acc_p 0 ≠ p.isr_code_b) : admitFrame p b f = (.admitted, f) := by
  simpa [hasCmd_iff.2 h, ha, hb] using admit_cases p b f

/-- A redundant frame is skipped, and its cache, equal to it, stays as it is. -/
theorem admitFrame_of_isrRedundant (h : 8 ≤ b.p_bit_total.toNat) (hred : IsrRedundant p b.acc_p f) :
    admitFrame p b f = (.redundant, f) := by
  by_cases ha : byteAt b.acc_p 0 = p.isr_code_a
  · rw [isrRedundant_of_codeA ha] at hred
    rw [admitFrame_of_codeA h ha, hred, cacheAfter_of_redundantIn hred]
    rfl
  by_cases hb : byteAt b.acc_p 0 = p.isr_code_b
  · rw [isrRedundant_of_codeB ha hb] at hred
    rw [admitFrame_of_codeB h ha hb, hred, cacheAfter_of_redundantIn hred]
    rfl
  · exact absurd hred (not_isrRedundant_of_unmonitored ha hb)

theorem admitFrame_of_not_isrRedundant (h : 8 ≤ b.p_bit_total.toNat)
    (hnew : ¬IsrRedundant p b.acc_p f) : (admitFrame p b f).1 = .admitted := by
  by_cases ha : byteAt b.acc_p 0 = p.isr_code_a
  · rw [isrRedundant_of_codeA ha, Bool.not_eq_true] at hnew
    rw [admitFrame_of_codeA h ha, hnew]
    rfl
  by_cases hb : byteAt b.acc_p 0 = p.isr_code_b
  · rw [isrRedundant_of_codeB ha hb, Bool.not_eq_true] at hnew
    rw [admitFrame_of_codeB h ha hb, hnew]
    rfl
  · rw [admitFrame_of_unmonitored h ha hb]
end

/-- Settles O37: by the frame's code; the filter leaves the frame in its cache, redundant or not. -/
theorem monitoredFramesUpdateTheirCache : Obligations.MonitoredFramesUpdateTheirCache := by
  intro s hlong
  refine ⟨fun ha => ?_, fun ha hb => ?_, fun ha hb => ?_⟩
  · rw [complete_rf, admitFrame_of_codeA hlong ha, cacheAfter_full]
  · rw [complete_rf, admitFrame_of_codeB hlong ha hb, cacheAfter_full]
  · rw [complete_rf, admitFrame_of_unmonitored hlong ha hb]

/-! ## The buffer and the condition, by the room left (R82, R125) -/

section
variable {fb : FrameBuffer}

theorem bufferAfter_admitted_of_full (h : fb.buf_len.toNat = 10) (b : BitSampler) :
    bufferAfter .admitted b fb = { fb with ovf := true } := by
  simpa [h] using bufferAfter_cases .admitted b fb

theorem bufferAfter_admitted_of_room (h : fb.buf_len.toNat < 10) (b : BitSampler) :
    bufferAfter .admitted b fb = { fb with
      buf_data := vset fb.buf_data fb.buf_len.toNat b.acc_p
      buf_bytes := vset fb.buf_bytes fb.buf_len.toNat b.p_byte_count
      buf_bits := vset fb.buf_bits fb.buf_len.toNat b.p_bit_total
      cur_cmd := byteAt b.acc_p 0
      buf_len := fb.buf_len + 1 } := by
  simpa [h.ne] using bufferAfter_cases .admitted b fb

theorem completionConditions_admitted_of_full (h : fb.buf_len.toNat = 10) :
    completionConditions .admitted fb = [.frameOverflow] := by
  simp [completionConditions, bufFull, h]

theorem completionConditions_admitted_of_room (h : fb.buf_len.toNat < 10) :
    completionConditions .admitted fb = [] := by
  simp [completionConditions, bufFull, h.ne]
end

/-- Settles O36: what admission answers decides the buffer and the condition, with the room left for an
admitted frame. -/
theorem completionAdmitsFrames : Obligations.CompletionAdmitsFrames := by
  intro s
  refine ⟨fun hshort => ?_, fun hlong hred => ?_, fun hlong hnew hfull => ?_, fun hlong hnew hroom => ?_⟩
  · rw [complete_fb, complete_rf, complete_io, admitFrame_of_short hshort]
    exact ⟨rfl, rfl, rfl⟩
  · rw [complete_fb, complete_rf, complete_io, admitFrame_of_isrRedundant hlong hred]
    exact ⟨rfl, rfl, rfl⟩
  · have hten : s.fb.buf_len.toNat = 10 := by rw [hfull]; rfl
    rw [complete_fb, complete_io, admitFrame_of_not_isrRedundant hlong hnew,
      bufferAfter_admitted_of_full hten, completionConditions_admitted_of_full hten]
    exact ⟨rfl, rfl⟩
  · rw [complete_fb, complete_io, admitFrame_of_not_isrRedundant hlong hnew,
      bufferAfter_admitted_of_room hroom, completionConditions_admitted_of_room hroom]
    exact ⟨rfl, List.append_nil _⟩

/-! ## Frame after frame (R82, T3) -/

@[simp] theorem captureFrame_cfg (s : State) (f : CapturedFrame) : (captureFrame s f).cfg = s.cfg := rfl

/-- The buffer `fb` holds the oldest ten of the frames `fs` in arrival order, which came to the buffer
`start`; what overflowed is told by `ovf` alone. -/
structure HoldsOldest (start : FrameBuffer) (fs : List CapturedFrame) (fb : FrameBuffer) : Prop where
  buf_len : fb.buf_len.toNat = min fs.length 10
  slot : ∀ k f, k < 10 → fs[k]? = some f → vget fb.buf_data k zeroFrame = f.data ∧
    vget fb.buf_bytes k 0 = f.bytes ∧ vget fb.buf_bits k 0 = f.bits
  ovf : fb.ovf = (start.ovf || decide (10 < fs.length))
  buf_rd : fb.buf_rd = start.buf_rd

namespace HoldsOldest
variable {start fb : FrameBuffer} {fs : List CapturedFrame}

theorem nil (h : fb.buf_len = 0) : HoldsOldest fb [] fb where
  buf_len := by simp [h]
  slot := by simp
  ovf := by simp
  buf_rd := rfl

/-- An eleventh or later frame is dropped: the slots stand, and `ovf` is set. -/
theorem drop (h : HoldsOldest start fs fb) (hfull : 10 ≤ fs.length) (f : CapturedFrame) :
    HoldsOldest start (fs ++ [f]) { fb with ovf := true } where
  buf_len := by
    have hlen := h.buf_len
    simp only [List.length_append, List.length_singleton]
    omega
  slot k g hk hg := h.slot k g hk (by rwa [List.getElem?_append_left (by omega)] at hg)
  ovf := by simp [Nat.lt_succ_of_le hfull]
  buf_rd := h.buf_rd

/-- One of the first ten frames takes the slot after those before it. -/
theorem append (h : HoldsOldest start fs fb) (hroom : fs.length < 10) (b : BitSampler) :
    HoldsOldest start (fs ++ [⟨b.acc_p, b.p_byte_count, b.p_bit_total⟩])
      (bufferAfter .admitted b fb) := by
  have hlen : fb.buf_len.toNat = fs.length := by rw [h.buf_len]; omega
  rw [bufferAfter_admitted_of_room (by omega)]
  refine ⟨?_, fun k g hk hg => ?_, ?_, h.buf_rd⟩
  · simp only [List.length_append, List.length_singleton]
    bv_omega
  · rcases Nat.lt_trichotomy k fs.length with hold | rfl | hbeyond
    · rw [List.getElem?_append_left hold] at hg
      simpa [hlen, hold.ne'] using h.slot k g hk hg
    · rw [List.getElem?_concat_length, Option.some.injEq] at hg
      simp [hlen, hroom, ← hg]
    · rw [List.getElem?_eq_none (by simpa using hbeyond)] at hg
      cases hg
  · have hfew : ¬10 < fs.length := by omega
    have hfew' : ¬10 < fs.length + 1 := by omega
    simpa [hfew, hfew'] using h.ovf

/-- A frame admitted is appended or dropped, as the first ten are in or not. -/
theorem admitted (h : HoldsOldest start fs fb) (b : BitSampler) :
    HoldsOldest start (fs ++ [⟨b.acc_p, b.p_byte_count, b.p_bit_total⟩])
      (bufferAfter .admitted b fb) := by
  by_cases hroom : fs.length < 10
  · exact h.append hroom b
  · have hlen := h.buf_len
    rw [bufferAfter_admitted_of_full (by omega)]
    exact h.drop (by omega) _
end HoldsOldest

/-- A frame the interrupt path never turns away, whatever its caches hold: long enough and of neither monitored
code (R80, R81). -/
def Unmonitored (p : Params) (f : CapturedFrame) : Prop :=
  8 ≤ f.bits.toNat ∧ byteAt f.data 0 ≠ p.isr_code_a ∧ byteAt f.data 0 ≠ p.isr_code_b

theorem captureFrame_fb_of_unmonitored {s : State} {f : CapturedFrame} (h : Unmonitored s.cfg f) :
    (captureFrame s f).fb = bufferAfter .admitted
      { s.bs with acc_p := f.data, p_byte_count := f.bytes, p_bit_total := f.bits } s.fb := by
  obtain ⟨hlong, ha, hb⟩ := h
  rw [captureFrame, complete_fb, admitFrame_of_unmonitored hlong ha hb]

theorem foldl_captureFrame_holdsOldest {s : State} {fs : List CapturedFrame} (hempty : s.fb.buf_len = 0)
    (h : ∀ f ∈ fs, Unmonitored s.cfg f) :
    (fs.foldl captureFrame s).cfg = s.cfg ∧ HoldsOldest s.fb fs (fs.foldl captureFrame s).fb := by
  induction fs using List.reverseRecOn with
  | nil => exact ⟨rfl, .nil hempty⟩
  | append_singleton fs f ih =>
    obtain ⟨hfs, hf⟩ := List.forall_mem_append.1 h
    obtain ⟨hcfg, hholds⟩ := ih hfs
    rw [List.foldl_concat]
    refine ⟨(captureFrame_cfg _ f).trans hcfg, ?_⟩
    rw [captureFrame_fb_of_unmonitored (hcfg ▸ List.forall_mem_singleton.1 hf)]
    exact hholds.admitted { (fs.foldl captureFrame s).bs with
      acc_p := f.data, p_byte_count := f.bytes, p_bit_total := f.bits }

/-- Settles O39: every frame is admitted, so the buffer holds the oldest ten after each. -/
theorem overflowKeepsTheOldestTen : Obligations.OverflowKeepsTheOldestTen := by
  intro s fs hempty h
  obtain ⟨-, hlen, hslot, hovf, hrd⟩ := foldl_captureFrame_holdsOldest hempty h
  exact ⟨hlen, hslot, hovf, hrd⟩

/-! ## The end of a frame (R67, R68, R77) -/

/-- A module bit leaves the panel accumulator and its counters alone. -/
theorem moduleBit_panel (p : Params) (modEn : Bool) (depth : Nat) (d : Bool) (b : BitSampler) :
    (moduleBit p modEn depth d b).acc_p = b.acc_p ∧
      (moduleBit p modEn depth d b).p_bit_total = b.p_bit_total ∧
      (moduleBit p modEn depth d b).p_byte_count = b.p_byte_count := by
  unfold moduleBit moduleShift
  dsimp only
  split_ifs <;> exact ⟨rfl, rfl, rfl⟩

/-- The gap a sample sees after a falling edge is the clock-high time that edge measured. -/
theorem gapSeen_of_fall {s t : State} (htiming : s.cfg.timing = Config.hardware.timing)
    (hfall : exec .evFall s = .next t) :
    gapSeen t.cfg t.bs = true ↔ 1000 < (s.io.now_us - s.bs.t_rise).toNat := by
  obtain rfl := conclude_next hfall
  have hlimit : s.cfg.timing.t_gap_us.toNat = 1000 := by rw [htiming]; rfl
  simp [gapSeen_iff, hlimit]

section
variable {s : State}

/-- A low sample after a gap ends the frame, and its module bit touches nothing of that (R68, D11). -/
theorem timerExpiry_low_of_gap (h : s.bs.tmr_armed = true) (hgap : gapSeen s.cfg s.bs = true) (d : Bool) :
    (timerExpiry false d s).bus = { s.bus with t_gap := s.io.now_ms, gap_seen := true } ∧
      (timerExpiry false d s).bs.acc_p = zeroFrame ∧ (timerExpiry false d s).bs.p_bit_total = 0 ∧
      (timerExpiry false d s).bs.p_byte_count = 0 := by
  rw [timerExpiry_of_gap h hgap]
  exact ⟨rfl, moduleBit_panel ..⟩

/-- A low sample without a gap is a module bit alone. -/
theorem timerExpiry_low_of_no_gap (h : s.bs.tmr_armed = true) (hgap : ¬gapSeen s.cfg s.bs = true)
    (d : Bool) :
    (timerExpiry false d s).bus = s.bus ∧ (timerExpiry false d s).fb = s.fb ∧
      (timerExpiry false d s).rf = s.rf ∧ (timerExpiry false d s).out = s.out ∧
      (timerExpiry false d s).bs.acc_p = s.bs.acc_p ∧
      (timerExpiry false d s).bs.p_bit_total = s.bs.p_bit_total ∧
      (timerExpiry false d s).bs.p_byte_count = s.bs.p_byte_count := by
  rw [timerExpiry_of_no_gap h hgap]
  exact ⟨rfl, rfl, rfl, rfl, moduleBit_panel ..⟩
end

/-- Settles O29: the falling edge measures the gap and arms the timer, so the low sample ends the frame
exactly when the gap was too long. -/
theorem onlyAGapOverOneMillisecondEndsAFrame : Obligations.OnlyAGapOverOneMillisecondEndsAFrame := by
  intro s t u us ms d htiming hfall hsample
  have hgap := gapSeen_of_fall htiming hfall
  have harmed : t.bs.tmr_armed = true := by rw [conclude_next hfall]; rfl
  obtain rfl := conclude_next hsample
  split
  · next hlong =>
    obtain ⟨hbus, hacc, htotal, hbytes⟩ :=
      timerExpiry_low_of_gap (s := beginStep (t.atTime us ms)) harmed (hgap.2 hlong) d
    exact ⟨congrArg (·.t_gap) hbus, congrArg (·.gap_seen) hbus, htotal, hbytes, hacc⟩
  · next hshort =>
    have hkept := timerExpiry_low_of_no_gap (s := beginStep (t.atTime us ms)) harmed (mt hgap.1 hshort) d
    obtain rfl := conclude_next hfall
    exact hkept

end Sys2Proof.Machine
end

section
/-! SUPPORT. The redundancy filter and the checksum (spec/42_filter_crc.md): what `IsRedundant` answers and
the cache it leaves (R87, R90), and which bytes `CrcValid` depends on (R91, R93, R94); and the proofs of O41
to O45. -/

namespace Sys2Proof.Machine

/-! ## IsRedundant, by its answer (R87) -/

theorem redundantIn_iff {c : Cache} {cand : Frame} {len : Nat} :
    redundantIn c cand len = true ↔
      c.valid = true ∧ ∀ i < min len 16, byteAt c.data i = byteAt cand i := by
  rw [redundantIn, Bool.and_eq_true, sameBytes_iff]

theorem isRedundant_of_redundantIn {c : Cache} {cand : Frame} {len : Nat}
    (h : redundantIn c cand len = true) : isRedundant c cand len = (true, c) := by
  rw [isRedundant, cacheAfter_of_redundantIn h, h]

theorem isRedundant_of_not_redundantIn {c : Cache} {cand : Frame} {len : Nat}
    (h : ¬redundantIn c cand len = true) : isRedundant c cand len = (false, ⟨true, cand⟩) := by
  rw [isRedundant, cacheAfter, if_neg h, Bool.eq_false_iff.2 h]

/-- The frame a valid cache holds is redundant at every compare length. -/
theorem isRedundant_cached (f : Frame) (len : Nat) :
    isRedundant ⟨true, f⟩ f len = (true, ⟨true, f⟩) :=
  isRedundant_of_redundantIn (redundantIn_iff.2 ⟨rfl, fun _ _ => rfl⟩)

theorem isRedundant_of_invalid {c : Cache} (h : c.valid = false) (f : Frame) (len : Nat) :
    isRedundant c f len = (false, ⟨true, f⟩) :=
  isRedundant_of_not_redundantIn (by simp [redundantIn_iff, h])

/-- One compared byte that differs is enough for "not redundant". -/
theorem isRedundant_of_byte_ne {f g : Frame} {len i : Nat} (hi : i < min len 16)
    (hne : byteAt f i ≠ byteAt g i) : isRedundant ⟨true, f⟩ g len = (false, ⟨true, g⟩) :=
  isRedundant_of_not_redundantIn fun h => hne ((redundantIn_iff.1 h).2 i hi)

/-- Settles O41: the answer is `redundantIn`, whose two conditions are the statement's, and the cache is
chosen by it. -/
theorem redundantMeansValidAndEqualPrefix : Obligations.RedundantMeansValidAndEqualPrefix :=
  fun _ _ _ => ⟨redundantIn_iff, rfl⟩

/-! ## A frame fed again and again (R90) -/

theorem filterAnswers_cons (len : Nat) (c : Cache) (f : Frame) (fs : List Frame) :
    filterAnswers len c (f :: fs) =
      ((isRedundant c f len).1 :: (filterAnswers len (isRedundant c f len).2 fs).1,
        (filterAnswers len (isRedundant c f len).2 fs).2) := rfl

/-- The frame the cache holds is redundant every time, and the cache goes on holding it. -/
theorem filterAnswers_cached (len : Nat) (f : Frame) (N : Nat) :
    filterAnswers len ⟨true, f⟩ (List.replicate N f) = (List.replicate N true, ⟨true, f⟩) := by
  induction N with
  | zero => rfl
  | succ N ih => rw [List.replicate_succ, filterAnswers_cons, isRedundant_cached, ih, List.replicate_succ]

/-- Settles O42: the first frame fills the invalid cache, its repeats find themselves there, and a byte
compared and different replaces it. -/
theorem redundancyIsIdempotent : Obligations.RedundancyIsIdempotent := by
  intro c f g len N hinvalid
  refine ⟨?_, fun ⟨_, hi, hne⟩ => isRedundant_of_byte_ne hi hne⟩
  rw [List.replicate_succ, filterAnswers_cons, isRedundant_of_invalid hinvalid, filterAnswers_cached]

/-! ## The checksum, byte by byte (R91) -/

/-- The stop-bit slot is not summed. -/
theorem checksum_two (f : Frame) : checksum f 2 = checksum f 1 := rfl

theorem checksum_succ (f : Frame) {k : Nat} (h : k ≠ 1) :
    checksum f (k + 1) = checksum f k + byteAt f k := if_neg h

/-- The 8-bit checksum is the sum of its bytes as numbers, wrapped. -/
theorem checksum_toNat (f : Frame) (k : Nat) :
    (checksum f k).toNat = (∑ i ∈ (Finset.range k).erase 1, (byteAt f i).toNat) % 256 := by
  induction k with
  | zero => rfl
  | succ k ih =>
    by_cases hk : k = 1
    · subst hk
      rw [checksum_two, ih]
      rfl
    · have hnew : k ∉ (Finset.range k).erase 1 := by simp
      rw [checksum_succ f hk, BitVec.toNat_add, ih, Finset.range_add_one,
        Finset.erase_insert_of_ne hk, Finset.sum_insert hnew]
      omega

/-- The checksum is a function of the bytes below `k` but index 1. -/
theorem checksum_congr {f g : Frame} {k : Nat} (h : ∀ i < k, i ≠ 1 → byteAt f i = byteAt g i) :
    checksum f k = checksum g k := by
  induction k with
  | zero => rfl
  | succ k ih =>
    have hbelow := ih fun i hi => h i (by omega)
    by_cases hk : k = 1
    · subst hk
      exact hbelow
    · rw [checksum_succ f hk, checksum_succ g hk, hbelow, h k k.lt_succ_self hk]

theorem checksum_setByte_stop (f : Frame) (v : Byte) (k : Nat) :
    checksum (setByte f 1 v) k = checksum f k :=
  checksum_congr fun _ _ hne => byteAt_setByte_ne f _ _ v hne.symm

theorem checksum_setByte_of_ge (f : Frame) (v : Byte) {i k : Nat} (h : k ≤ i) :
    checksum (setByte f i v) k = checksum f k :=
  checksum_congr fun j hj _ => byteAt_setByte_ne f i j v (by omega)

/-- Replacing a summed byte moves the checksum by the difference of the two bytes. -/
theorem checksum_setByte_summed (f : Frame) (v : Byte) {i k : Nat} (hik : i < k) (hi : i < 16)
    (hne : i ≠ 1) : checksum (setByte f i v) k = checksum f k + (v - byteAt f i) := by
  induction k with
  | zero => omega
  | succ k ih =>
    by_cases hk : k = 1
    · subst hk
      exact ih (by omega)
    · rw [checksum_succ _ hk, checksum_succ _ hk]
      rcases Nat.lt_succ_iff_lt_or_eq.1 hik with hlt | rfl
      · rw [ih hlt, byteAt_setByte_ne f i k v (by omega)]
        ring
      · rw [checksum_setByte_of_ge f v le_rfl, byteAt_setByte_self f i v hi]
        ring

/-! ## CrcValid (R91..R94) -/

theorem crcValid_iff {exempt : Vector Byte 32} {f : Frame} {n : Nat} :
    crcValid exempt f n = true ↔
      tableBit exempt (byteAt f 0) = true ∨ (3 ≤ n ∧ checksum f (n - 1) = byteAt f (n - 1)) := by
  unfold crcValid
  split_ifs with hexempt hshort
  · simp [hexempt]
  · simp [hexempt, hshort]
  · simp [hexempt, not_lt.1 hshort]

/-- With n at least 3 neither the command nor the checksum byte is the stop-bit slot. -/
theorem crcValid_setByte_stop (exempt : Vector Byte 32) (f : Frame) (n : Nat) (v : Byte) :
    crcValid exempt (setByte f 1 v) n = crcValid exempt f n := by
  rw [Bool.eq_iff_iff, crcValid_iff, crcValid_iff, byteAt_setByte_ne f 1 0 v one_ne_zero,
    checksum_setByte_stop]
  refine or_congr_right (and_congr_right fun hn => ?_)
  rw [byteAt_setByte_ne f 1 (n - 1) v (by omega)]

/-- The computed checksum, stored as the last counted byte, is not itself summed. -/
theorem crcValid_append_checksum (exempt : Vector Byte 32) (f : Frame) {n : Nat} (hn : 3 ≤ n)
    (hmax : n ≤ 16) : crcValid exempt (setByte f (n - 1) (checksum f (n - 1))) n = true := by
  rw [crcValid_iff, checksum_setByte_of_ge f _ le_rfl, byteAt_setByte_self f (n - 1) _ (by omega)]
  exact .inr ⟨hn, rfl⟩

/-- Two valid frames, not exempt, that differ in at most one summed byte have the same byte there. -/
theorem eq_byteAt_of_crcValid_setByte {exempt : Vector Byte 32} {f : Frame} {n i : Nat} {v : Byte}
    (hmax : n ≤ 16) (hi : i < n - 1) (hstop : i ≠ 1)
    (hf : ¬tableBit exempt (byteAt f 0) = true) (hg : ¬tableBit exempt (byteAt (setByte f i v) 0) = true)
    (hvalid : crcValid exempt f n = true) (hset : crcValid exempt (setByte f i v) n = true) :
    v = byteAt f i := by
  obtain ⟨-, hsum⟩ := (crcValid_iff.1 hvalid).resolve_left hf
  obtain ⟨-, hsum'⟩ := (crcValid_iff.1 hset).resolve_left hg
  have hsame : checksum f (n - 1) + (v - byteAt f i) = checksum f (n - 1) :=
    calc checksum f (n - 1) + (v - byteAt f i)
      _ = checksum (setByte f i v) (n - 1) := (checksum_setByte_summed f v hi (by omega) hstop).symm
      _ = byteAt (setByte f i v) (n - 1) := hsum'
      _ = byteAt f (n - 1) := byteAt_setByte_ne f i (n - 1) v (by omega)
      _ = checksum f (n - 1) := hsum.symm
  exact sub_eq_zero.1 (add_eq_left.1 hsame)

/-- Settles O43: the checksum as a number is the wrapped sum. -/
theorem crcValidIsTheByteSum : Obligations.CrcValidIsTheByteSum := by
  intro exempt f n
  rw [crcValid_iff, ← checksum_toNat, BitVec.toNat_inj]

/-- Settles O44: the appended checksum is the sum compared with it; a valid frame with one summed byte
replaced is valid only if that byte is the old one. -/
theorem checksumRoundTrip : Obligations.ChecksumRoundTrip := by
  intro exempt f n hn hmax
  refine ⟨crcValid_append_checksum exempt f hn hmax, fun i v hi hstop hne hf hg hvalid => ?_⟩
  rw [← Bool.not_eq_true] at hf hg ⊢
  exact fun hset => hne (eq_byteAt_of_crcValid_setByte hmax hi hstop hf hg hvalid hset)

/-- Settles O45: none of the bytes `CrcValid` reads is the stop-bit slot. -/
theorem stopSlotNeverMattersToTheChecksum : Obligations.StopSlotNeverMattersToTheChecksum :=
  crcValid_setByte_stop

end Sys2Proof.Machine
end

section
/-! SUPPORT. The invariant of the block (10_state.md sections 2 to 6): the ranges and the counter relations of
each unit under every operation that writes it, the inertness of an absent write line (R28, R108), and the
proof of O11. -/

namespace Sys2Proof.Machine

/-! ## The invariant, unit by unit -/

/-- What the invariant asks of the engine, given the parameters and the keypad's enable bit: its ranges, and
without a write line that it is disabled, idle and silent. -/
structure EngineInv (p : Params) (en : Bool) (w : WriteEngine) : Prop where
  writer : WriterInv p w
  inert : p.write_line_present = false → en = false ∧ w.wr_state = .idle ∧ w.wr_line = false

theorem inv_iff (s : State) :
    s.Inv ↔ SamplerInv s.bs ∧ BufferInv s.fb ∧ OutputInv s.out ∧ PresenceInv s.bus ∧ QueueInv s.sq ∧
      EngineInv s.cfg s.ctl.wr_en s.we :=
  ⟨fun ⟨hbs, hfb, hout, hbus, hwe, hsq, hline⟩ => ⟨hbs, hfb, hout, hbus, hsq, hwe, hline⟩,
    fun ⟨hbs, hfb, hout, hbus, hsq, hwe, hline⟩ => ⟨hbs, hfb, hout, hbus, hwe, hsq, hline⟩⟩

/-! ## BitSampler (R69..R75) -/

section
variable {b : BitSampler}

theorem PanelCounters.byte_count_le (h : PanelCounters b) : b.p_byte_count.toNat ≤ 16 := by
  unfold PanelCounters at h
  omega

theorem ModuleCounters.byte_count_le (h : ModuleCounters b) : b.m_byte_count.toNat ≤ 16 := by
  unfold ModuleCounters at h
  omega

theorem clearAccumulators_samplerInv (b : BitSampler) : SamplerInv (clearAccumulators b) :=
  ⟨.inl (by simp), .inl (by simp)⟩

/-- The stop bit, a bit into a byte, the last bit of a byte, and a bit beyond the storage. -/
theorem panelBit_panelCounters (h : PanelCounters b) (d : Bool) : PanelCounters (panelBit d b) := by
  have htotal := satIncr_toNat b.p_bit_total
  unfold PanelCounters at h ⊢
  by_cases hstop : b.p_bit_total.toNat = 8
  · rw [panelBit_of_stop d hstop]; bv_omega
  by_cases hroom : b.p_byte_count.toNat < 16
  · by_cases hbits : b.p_bit_count.toNat < 7
    · rw [panelBit_of_shift d hstop hroom hbits]; bv_omega
    · rw [panelBit_of_finish d hstop hroom hbits]; bv_omega
  · rw [panelBit_of_full d hstop hroom]; bv_omega

theorem panelBit_moduleCounters (h : ModuleCounters b) (d : Bool) : ModuleCounters (panelBit d b) := by
  unfold panelBit panelStop panelShift
  dsimp only
  split_ifs <;> exact h

theorem moduleShift_panelCounters (h : PanelCounters b) (p : Params) (d : Bool) :
    PanelCounters (moduleShift p d b) := by
  unfold moduleShift
  dsimp only
  split_ifs <;> exact h

theorem moduleBit_samplerInv (h : SamplerInv b) (p : Params) (modEn : Bool) (depth : Nat) (d : Bool) :
    SamplerInv (moduleBit p modEn depth d b) := by
  obtain ⟨hp, hm⟩ := h
  unfold moduleBit
  split
  · next hgate =>
    obtain ⟨-, -, hroom⟩ := moduleGate_iff.1 hgate
    exact ⟨moduleShift_panelCounters hp p d, moduleShift_counters p d hm hroom⟩
  · exact ⟨hp, hm⟩
end

/-! ## FrameBuffer and output (R82, R84, R98) -/

section
variable {b : BitSampler} {fb : FrameBuffer} {o : OutputState}

theorem bufferAfter_bufferInv (h : BufferInv fb) (hpanel : PanelCounters b) (a : Admission) :
    BufferInv (bufferAfter a b fb) := by
  obtain ⟨hlen, hrd, hbytes⟩ := h
  rcases bufferAfter_cases a b fb with ⟨-, e⟩ | ⟨-, -, e⟩ | ⟨-, hroom, e⟩ <;> rw [e]
  · exact ⟨hlen, hrd, hbytes⟩
  · exact ⟨hlen, hrd, hbytes⟩
  · have hmore : (fb.buf_len + 1).toNat = fb.buf_len.toNat + 1 := by bv_omega
    refine ⟨by simp only [hmore]; omega, hrd.imp_right fun _ => by bv_omega, fun k => ?_⟩
    simp only [vget_vset]
    split
    · exact hpanel.byte_count_le
    · exact hbytes k

theorem advanceRead_bufferInv (h : BufferInv fb) : BufferInv (advanceRead fb) := by
  obtain ⟨hlen, hrd, hbytes⟩ := h
  rcases advanceRead_cases fb with ⟨-, e⟩ | ⟨hmore, e⟩ <;> rw [e]
  · exact ⟨by simp, .inl rfl, hbytes⟩
  · exact ⟨hlen, .inr (BitVec.not_le.1 hmore), hbytes⟩

theorem copySlot_outputInv (ho : OutputInv o) (hfb : BufferInv fb) : OutputInv (copySlot fb o) := by
  obtain ⟨-, hmod⟩ := ho
  obtain ⟨-, -, hbytes⟩ := hfb
  exact ⟨hbytes fb.buf_rd.toNat, hmod⟩

theorem latchModule_outputInv (ho : OutputInv o) (hmodule : ModuleCounters b) (modEn : Bool) :
    OutputInv (latchModule modEn b o) := by
  unfold latchModule
  split
  · exact ⟨ho.1, hmodule.byte_count_le⟩
  · exact ho
end

/-! ## Bus presence (R96) -/

theorem presenceUpdate_presenceInv {b : Presence} (h : PresenceInv b) (limit now : Word) :
    PresenceInv (presenceUpdate limit now b) := by
  rcases presenceUpdate_cases limit now b with ⟨-, e⟩ | ⟨-, e⟩ <;> rw [e]
  · exact h
  · exact fun hconn => (Bool.and_eq_true_iff.1 hconn).1

/-! ## String queue (R119..R122) -/

section
variable {q : StringQueue}

theorem abandonQueue_queueInv (q : StringQueue) : QueueInv (abandonQueue q) :=
  ⟨BitVec.le_refl _, by simp⟩

/-- The cursor moves on only below the length. -/
theorem queueAfter_queueInv (h : QueueInv q) (hmore : atTerminator q = false) (r : Byte) :
    QueueInv (queueAfter r q) := by
  obtain ⟨hcur, hlen⟩ := h
  have hbelow : ¬q.wstr_len ≤ q.wstr_cur := by simp_all [atTerminator]
  unfold queueAfter
  split
  · exact ⟨by bv_omega, hlen⟩
  · split
    · exact abandonQueue_queueInv q
    · exact ⟨hcur, hlen⟩
end

/-! ## WriteEngine (R111, R113, R117) -/

section
variable {p : Params} {en : Bool} {w : WriteEngine}

theorem partitionOf_range (p : Params) (n : Nat) :
    1 ≤ (partitionOf p n).toNat ∧ (partitionOf p n).toNat ≤ p.maxPartitions := by
  have hone : 1 ≤ p.maxPartitions := Nat.succ_pos _
  rw [partitionOf_toNat]
  split <;> omega

theorem WriterInv.ast_skip_eq_false (h : WriterInv p w) (hfree : w.wr_state ≠ .astHold) :
    w.ast_skip = false := by
  obtain ⟨-, -, -, hskip⟩ := h
  exact Bool.eq_false_iff.2 fun hset => hfree (hskip hset)

/-- Outside the hold the engine may move to any state, an alarm state only if an alarm key was armed. -/
theorem WriterInv.move (h : WriterInv p w) (hfree : w.wr_state ≠ .astHold) {st : WrState}
    (halarm : alarmState st = true → w.alarm_seen = true) (line : Bool) :
    WriterInv p { w with wr_state := st, wr_line := line } := by
  have hskip := h.ast_skip_eq_false hfree
  obtain ⟨hlo, hhi, -, -⟩ := h
  exact ⟨hlo, hhi, halarm, fun hset => absurd hset (by simp [hskip])⟩

theorem alarmStep_frame (T : Nat) (w : WriteEngine) :
    ∃ st line, alarmStep T w = { w with wr_state := st, wr_line := line } := by
  unfold alarmStep
  dsimp only
  split_ifs
  all_goals exact ⟨_, _, rfl⟩

/-- A regular key's emission goes on to EMIT_REG, stays where it is, or ends. -/
theorem regularStep_cases (p : Params) (T : Nat) (B : BitVec 5) (cmd : Byte) (w : WriteEngine) :
    ∃ line, regularStep p T B cmd w = { w with wr_state := .emitReg, wr_line := line } ∨
      regularStep p T B cmd w = { w with wr_line := line } ∨
      regularStep p T B cmd w = endRegular { w with wr_line := line } := by
  unfold regularStep
  dsimp only
  split_ifs
  · exact ⟨_, .inl rfl⟩
  · exact ⟨_, .inr (.inr rfl)⟩
  · exact ⟨_, .inr (.inl rfl)⟩
  · exact ⟨w.wr_line, .inr (.inl rfl)⟩

/-- Only a regular key that waits for its acknowledgement sets the skip flag, and the hold with it. -/
theorem endRegular_writerInv (h : WriterInv p w) (hfree : w.wr_state ≠ .astHold) :
    WriterInv p (endRegular w) := by
  unfold endRegular
  split
  · obtain ⟨hlo, hhi, -, -⟩ := h
    exact ⟨hlo, hhi, nofun, fun _ => rfl⟩
  · exact h.move (st := .idle) hfree nofun w.wr_line

theorem alarmStep_writerInv (h : WriterInv p w) (hstate : alarmState w.wr_state = true) (T : Nat) :
    WriterInv p (alarmStep T w) := by
  have hseen : w.alarm_seen = true := by
    obtain ⟨-, -, halarm, -⟩ := h
    exact halarm hstate
  have hfree : w.wr_state ≠ .astHold := by rintro e; rw [e] at hstate; cases hstate
  obtain ⟨st, line, e⟩ := alarmStep_frame T w
  rw [e]
  exact h.move hfree (fun _ => hseen) line

theorem regularStep_writerInv (h : WriterInv p w)
    (hstate : w.wr_state = .armReg ∨ w.wr_state = .emitReg) (T : Nat) (B : BitVec 5) (cmd : Byte) :
    WriterInv p (regularStep p T B cmd w) := by
  have hfree : w.wr_state ≠ .astHold := by rcases hstate with e | e <;> simp [e]
  obtain ⟨line, e | e | e⟩ := regularStep_cases p T B cmd w <;> rw [e]
  · exact h.move (st := .emitReg) hfree nofun line
  · exact h
  · exact endRegular_writerInv (w := { w with wr_line := line }) h hfree

/-- `WriteStep` is the alarm key's step, the regular key's, or nothing, by the engine's state. -/
theorem writeStep_cases (p : Params) (T : Nat) (B : BitVec 5) (cmd : Byte) (w : WriteEngine) :
    (alarmState w.wr_state = true ∧ writeStep p T B cmd w = alarmStep T w) ∨
      ((w.wr_state = .armReg ∨ w.wr_state = .emitReg) ∧
        writeStep p T B cmd w = regularStep p T B cmd w) ∨
      ((w.wr_state = .idle ∨ w.wr_state = .astHold) ∧ writeStep p T B cmd w = w) := by
  unfold writeStep
  cases w.wr_state <;> simp [alarmState]

theorem writeStep_writerInv (h : WriterInv p w) (T : Nat) (B : BitVec 5) (cmd : Byte) :
    WriterInv p (writeStep p T B cmd w) := by
  rcases writeStep_cases p T B cmd w with ⟨hstate, e⟩ | ⟨hstate, e⟩ | ⟨-, e⟩ <;> rw [e]
  · exact alarmStep_writerInv h hstate T
  · exact regularStep_writerInv h hstate T B cmd
  · exact h

/-- An enabled keypad has a write line, so only the ranges are left to keep. -/
theorem EngineInv.of_enabled {v : WriteEngine} (h : EngineInv p true w) (hv : WriterInv p v) :
    EngineInv p true v := by
  refine ⟨hv, fun habsent => ?_⟩
  obtain ⟨hoff, -⟩ := h.inert habsent
  cases hoff

theorem submit_engineInv (h : EngineInv p en w) (now : Word) (c : Byte) :
    EngineInv p en (submit p en now c w).1 := by
  obtain ⟨hlo, hhi, halarm, hskip⟩ := h.writer
  rcases submit_cases p en now c w with ⟨_, e⟩ | ⟨_, n, e⟩ | ⟨_, _, rfl, hidle, e⟩ |
    ⟨_, _, rfl, hidle, e⟩ <;> rw [e]
  · exact ⟨h.writer, h.inert⟩
  · obtain ⟨hlo', hhi'⟩ := partitionOf_range p n
    exact ⟨⟨hlo', hhi', halarm, hskip⟩, h.inert⟩
  · exact h.of_enabled ⟨hlo, hhi, fun _ => rfl, fun hset => absurd (hidle.symm.trans (hskip hset)) nofun⟩
  · exact h.of_enabled ⟨hlo, hhi, nofun, fun hset => absurd (hidle.symm.trans (hskip hset)) nofun⟩

theorem holdRelease_engineInv (h : EngineInv p en w) (has : Bool) (cmd : Byte) :
    EngineInv p en (holdRelease p en has cmd w) := by
  obtain ⟨hlo, hhi, halarm, hskip⟩ := h.writer
  rcases holdRelease_cases p en has cmd w with e | ⟨rfl, -, -, e⟩ | ⟨rfl, -, hoff, -, -, e⟩ <;> rw [e]
  · exact h
  · exact h.of_enabled ⟨hlo, hhi, halarm, nofun⟩
  · exact h.of_enabled ⟨hlo, hhi, nofun, fun hset => absurd (hoff.symm.trans hset) nofun⟩
end

theorem emitOnFall_engineInv {s : State} (h : EngineInv s.cfg s.ctl.wr_en s.we) :
    EngineInv s.cfg s.ctl.wr_en (emitOnFall s) := by
  unfold emitOnFall
  split
  · next hen =>
    rw [hen] at h ⊢
    exact h.of_enabled (writeStep_writerInv h.writer _ _ _)
  · exact h

/-! ## One unit of the machine read and written -/

section
variable {s : State} (h : s.Inv)
include h

theorem State.Inv.samplerInv : SamplerInv s.bs := by
  obtain ⟨hbs, -⟩ := h
  exact hbs

theorem State.Inv.presenceInv : PresenceInv s.bus := by
  obtain ⟨-, -, -, hbus, -⟩ := h
  exact hbus

theorem State.Inv.queueInv : QueueInv s.sq := by
  obtain ⟨-, -, -, -, -, hsq, -⟩ := h
  exact hsq

theorem State.Inv.engineInv : EngineInv s.cfg s.ctl.wr_en s.we := by
  obtain ⟨-, -, -, -, hwe, -, hline⟩ := h
  exact ⟨hwe, hline⟩

theorem State.Inv.set_bs {b : BitSampler} (hb : SamplerInv b) : State.Inv { s with bs := b } := by
  obtain ⟨-, hrest⟩ := h
  exact ⟨hb, hrest⟩

theorem State.Inv.set_bus {b : Presence} (hb : PresenceInv b) : State.Inv { s with bus := b } := by
  obtain ⟨hbs, hfb, hout, -, hrest⟩ := h
  exact ⟨hbs, hfb, hout, hb, hrest⟩

theorem State.Inv.set_sq {q : StringQueue} (hq : QueueInv q) : State.Inv { s with sq := q } := by
  obtain ⟨hbs, hfb, hout, hbus, hwe, -, hline⟩ := h
  exact ⟨hbs, hfb, hout, hbus, hwe, hq, hline⟩

theorem State.Inv.set_we {w : WriteEngine} (hw : EngineInv s.cfg s.ctl.wr_en w) :
    State.Inv { s with we := w } := by
  obtain ⟨hbs, hfb, hout, hbus, hsq, -⟩ := (inv_iff s).1 h
  exact (inv_iff _).2 ⟨hbs, hfb, hout, hbus, hsq, hw⟩

/-! ## Bus events -/

theorem complete_inv : (complete s).Inv := by
  obtain ⟨⟨hp, hm⟩, hfb, hout, -, hsq, hwe⟩ := (inv_iff s).1 h
  exact (inv_iff _).2 ⟨clearAccumulators_samplerInv _, bufferAfter_bufferInv hfb hp _,
    latchModule_outputInv hout hm _, fun _ => rfl, hsq, holdRelease_engineInv hwe _ _⟩

theorem samplePanel_inv (d : Bool) : (samplePanel d s).Inv := by
  obtain ⟨hp, hm⟩ := h.samplerInv
  exact h.set_bs ⟨panelBit_panelCounters hp d, panelBit_moduleCounters hm d⟩

theorem sampleModule_inv (d : Bool) : (sampleModule d s).Inv :=
  h.set_bs (moduleBit_samplerInv h.samplerInv _ _ _ d)

theorem timerExpiry_inv (clk data : Bool) : (timerExpiry clk data s).Inv := by
  have hdisarmed : State.Inv { s with bs := { s.bs with tmr_armed := false } } := h
  rcases timerExpiry_cases clk data s with ⟨-, e⟩ | ⟨-, -, e⟩ | ⟨-, -, -, e⟩ | ⟨-, -, -, e⟩ <;> rw [e]
  · exact h
  · exact samplePanel_inv hdisarmed data
  · exact sampleModule_inv (complete_inv hdisarmed) data
  · exact sampleModule_inv hdisarmed data

/-- The line released at a rising edge is one way to be silent. -/
theorem releaseLine_engineInv : EngineInv s.cfg s.ctl.wr_en (releaseLine s.we) := by
  obtain ⟨hw, hinert⟩ := h.engineInv
  refine ⟨hw, fun habsent => ?_⟩
  obtain ⟨hen, hidle, -⟩ := hinert habsent
  exact ⟨hen, hidle, rfl⟩

/-! ## Host commands -/

theorem submitChar_inv (c : Byte) : (submitChar c s).1.Inv :=
  h.set_we (submit_engineInv h.engineInv _ c)

theorem pushChar_inv (c : Byte) : (pushChar c s).1.Inv := by
  unfold pushChar
  split
  · exact h
  · split
    · exact h
    · next hroom =>
      obtain ⟨hcur, hlen⟩ := h.queueInv
      have hless : s.sq.wstr_len.toNat ≠ 32 := hroom
      exact h.set_sq ⟨by bv_omega, by bv_omega⟩

theorem wstrDrainStep_inv : (wstrDrainStep s).Inv := by
  rcases wstrDrainStep_cases s with ⟨-, e⟩ | ⟨-, -, -, e⟩ | ⟨-, -, hmore, e⟩ <;> rw [e]
  · exact h
  · exact h.set_sq (abandonQueue_queueInv _)
  · exact (submitChar_inv h _).set_sq (queueAfter_queueInv h.queueInv hmore _)

/-- Without a write line bit 2 of CTRL stays 0 (R32). -/
theorem memWrite_inv (r v : Byte) : (memWrite s r v).Inv := by
  obtain ⟨hbs, hfb, hout, hbus, hsq, ⟨hlo, hhi, hranges⟩, hinert⟩ := (inv_iff s).1 h
  rcases memWrite_cases s r v with ⟨-, e⟩ | ⟨-, e⟩ | ⟨_, e⟩ | ⟨_, e⟩ | ⟨_, e⟩ | ⟨_, e⟩ | e <;> rw [e]
  · refine (inv_iff _).2 ⟨hbs, hfb, hout, hbus, hsq, ⟨hlo, hhi, hranges⟩, fun habsent => ?_⟩
    exact ⟨by simp_all [writeCtrl], (hinert habsent).2⟩
  · obtain ⟨hlo', hhi'⟩ := partitionOf_range s.cfg v.toNat
    exact h.set_we ⟨⟨hlo', hhi', hranges⟩, hinert⟩
  all_goals exact h

theorem drainSlot_inv : (drainSlot s).Inv := by
  obtain ⟨hbs, hfb, hout, hrest⟩ := h
  exact ⟨hbs, advanceRead_bufferInv hfb, copySlot_outputInv hout hfb, hrest⟩

theorem checkPanel_inv : (checkPanel s).Inv := by
  rw [inv_iff] at h ⊢
  simpa [OutputInv] using h

theorem filterPanel_inv : (filterPanel s).1.Inv := by
  unfold filterPanel
  split
  · exact h
  · dsimp only
    split <;> exact h

theorem settlePanel_inv : (settlePanel s).1.Inv := by
  unfold settlePanel
  split
  · exact filterPanel_inv (s := { s with out := { s.out with settled := true } }) h
  · exact h

theorem popFrame_inv (was : Bool) : (popFrame was s).1.Inv := by
  unfold popFrame
  split
  · exact h
  · split
    · exact h
    · exact settlePanel_inv (checkPanel_inv (drainSlot_inv h))

theorem popStep_inv : (popStep s).1.Inv := by
  have hdrained := wstrDrainStep_inv h
  exact popFrame_inv (hdrained.set_bus (presenceUpdate_presenceInv hdrained.presenceInv _ _)) _

theorem filterModule_inv : (filterModule s).1.Inv := by
  unfold filterModule
  split
  · exact h
  · dsimp only
    split <;> exact h

theorem mreadStep_inv : (mreadStep s).1.Inv := by
  unfold mreadStep
  split
  · exact h
  · dsimp only
    split
    · exact h
    · exact filterModule_inv (s := { s with out := { s.out with mod_capt := false } }) h
end

/-! ## Reset, every operation, every step -/

theorem powerUp_inv (p : Params) : (powerUp p).Inv := by
  refine (inv_iff _).2 ⟨clearAccumulators_samplerInv (powerUp p).bs, ⟨by simp [powerUp], .inl rfl, ?_⟩,
    ⟨by simp [powerUp], by simp [powerUp]⟩, nofun, ⟨BitVec.le_refl _, by simp [powerUp]⟩,
    ⟨le_rfl, Nat.succ_pos _, nofun, nofun⟩, fun habsent => ⟨habsent, rfl, rfl⟩⟩
  simp [powerUp]

theorem State.Inv.of_conclude {t : State} {r : State × Byte} (h : r.1.Inv)
    (hnext : conclude r = .next t) : t.Inv := by
  rw [conclude_next hnext]
  exact h

theorem exec_inv {i : Instr} {s t : State} (h : s.Inv) (hnext : exec i s = .next t) : t.Inv := by
  have hbegin : (beginStep s).Inv := h
  cases i with
  | nop => exact .of_conclude hbegin hnext
  | pop => exact .of_conclude (popStep_inv hbegin) hnext
  | mread => exact .of_conclude (mreadStep_inv hbegin) hnext
  | crc => exact .of_conclude (checkPanel_inv hbegin) hnext
  | wkey c => exact .of_conclude (submitChar_inv hbegin c) hnext
  | wstrClr => exact .of_conclude (hbegin.set_sq (abandonQueue_queueInv _)) hnext
  | wstrPush c => exact .of_conclude (pushChar_inv hbegin c) hnext
  | wstrGo => exact .of_conclude hbegin hnext
  | clr mask => exact .of_conclude hbegin hnext
  | rd idx => exact .of_conclude hbegin hnext
  | wr idx val => exact .of_conclude (memWrite_inv hbegin idx val) hnext
  | reset => exact .of_conclude (powerUp_inv s.cfg) hnext
  | evRise => exact .of_conclude ((hbegin.set_we (releaseLine_engineInv h)).set_bs h.samplerInv) hnext
  | evFall =>
    exact .of_conclude ((hbegin.set_we (emitOnFall_engineInv h.engineInv)).set_bs h.samplerInv) hnext
  | evTimer clk data => exact .of_conclude (timerExpiry_inv hbegin clk data) hnext

theorem runPresented_inv {p : Presented} {s t : State} (h : s.Inv)
    (hnext : runPresented p s = .next t) : t.Inv := by
  have hlatched : (latchInputs p s).Inv := h
  unfold runPresented at hnext
  split at hnext
  · exact exec_inv hlatched hnext
  · exact .of_conclude hlatched hnext

/-- Settles O11: taking the operation writes no unit, and every operation keeps the invariant of each unit it
writes. -/
theorem stepKeepsTheInvariant : Obligations.StepKeepsTheInvariant := by
  intro s t h hnext
  have htaken : (takePresented s).2.Inv := by
    rw [inv_iff] at h ⊢
    simpa using h
  exact runPresented_inv htaken hnext

end Sys2Proof.Machine
end

section
/-! SUPPORT. The register map at its host operations (10_state.md section 7, R32; R104 to R107): every row as
RD reads it, the flag registers bit by bit, and WR, CLR and NOP; the proofs of O21, O22, O24 and O25. -/

namespace Sys2Proof.Machine

/-! ## The flag registers, bit by bit (R32) -/

section
variable {b : Nat} (hb : b < 8)
include hb

theorem ctrlByte_getLsbD (c : ControlState) : (ctrlByte c).getLsbD b =
    (if b = 0 then c.mod_en else if b = 1 then c.proc_red else if b = 2 then c.wr_en else false) := by
  rw [ctrlByte, BitVec.getLsbD_ofBoolListLE]
  interval_cases b <;> rfl

theorem statusByte_getLsbD (s : State) : (statusByte s).getLsbD b =
    (if b = 0 then s.fb.ovf else if b = 1 then s.bus.connected else if b = 2 then s.bus.conn_chg
      else if b = 3 then s.out.mod_capt else if b = 4 then decide (s.we.wr_state = .idle)
      else if b = 5 then s.out.settled else if b = 6 then s.sq.wstr_active else s.out.crc_ok) := by
  rw [statusByte, BitVec.getLsbD_ofBoolListLE]
  interval_cases b <;> rfl

theorem linesByte_getLsbD (s : State) : (linesByte s).getLsbD b =
    (if b = 0 then s.we.wr_line else if b = 1 then s.bs.tmr_armed else false) := by
  rw [linesByte, BitVec.getLsbD_ofBoolListLE]
  interval_cases b <;> rfl
end

/-- The low three bits of WR_STATE are the state's code. -/
theorem wrStateByte_toNat_mod (w : WriteEngine) :
    (wrStateByte w).toNat % 8 = (wrStateCode w.wr_state).toNat := by
  have bits : ∀ (code : BitVec 3) (part ast skip group : Bool),
      (BitVec.ofBoolListLE [code.getLsbD 0, code.getLsbD 1, code.getLsbD 2, part, ast, skip, group,
        false]).toNat % 8 = code.toNat := by decide
  exact bits ..

theorem wrStateByte_flags (w : WriteEngine) :
    (wrStateByte w).getLsbD 3 = w.part_prefix ∧ (wrStateByte w).getLsbD 4 = w.wr_ast ∧
      (wrStateByte w).getLsbD 5 = w.ast_skip ∧ (wrStateByte w).getLsbD 6 = w.wr_group ∧
      (wrStateByte w).getLsbD 7 = false := by
  simp only [wrStateByte, BitVec.getLsbD_ofBoolListLE]
  exact ⟨rfl, rfl, rfl, rfl, rfl⟩

/-! ## A read of the rows that WR cannot write (R32) -/

/-- A counter narrower than a byte is read with zeros above it. -/
theorem toNat_memRead_of_setWidth {s : State} {n : Nat} {x : BitVec n} {r : Byte}
    (h : memRead s r = x.setWidth 8) (hn : n ≤ 8 := by decide) : (memRead s r).toNat = x.toNat := by
  rw [h, BitVec.toNat_setWidth_of_le hn]

section
variable (s : State) {r : Byte} {k : Nat}

theorem memRead_panelData (hr : r.toNat = 0x10 + k) (hk : k < 16) :
    memRead s r = byteAt s.out.panel_data k := by
  simp (disch := omega) only [memRead, if_pos, if_neg, hr, Nat.add_sub_cancel_left]

theorem memRead_modData (hr : r.toNat = 0x20 + k) (hk : k < 16) :
    memRead s r = byteAt s.out.mod_data k := by
  simp (disch := omega) only [memRead, if_pos, if_neg, hr, Nat.add_sub_cancel_left]

/-- The indices above the map read 0x00 (R36). -/
theorem memRead_reserved (hr : 0x85 ≤ r.toNat) : memRead s r = 0x00#8 := by
  simp (disch := omega) only [memRead, if_neg]
end

/-! ## The tables, byte by byte (R27, R32) -/

/-- Bit c of a table is bit c mod 8 of its byte c div 8: bit b of byte j is bit 8j + b. -/
theorem tableBit_ofNat (t : Vector Byte 32) {j b : Nat} (hj : j < 32) (hb : b < 8) :
    tableBit t (BitVec.ofNat 8 (8 * j + b)) = (vget t j 0).getLsbD b := by
  have hc : (BitVec.ofNat 8 (8 * j + b)).toNat = 8 * j + b := Nat.mod_eq_of_lt (by omega)
  have hbyte : (8 * j + b) / 8 = j := by omega
  have hbit : (8 * j + b) % 8 = b := by omega
  rw [tableBit, hc, hbyte, hbit]

theorem toNat_ofNat_row {base k : Nat} (h : base + k < 256) :
    (BitVec.ofNat 8 (base + k)).toNat = base + k :=
  Nat.mod_eq_of_lt h

/-! ## The host operations on the map -/

theorem exec_rd (r : Byte) (s : State) :
    exec (.rd r) s = .next { s with io := s.io.done (memRead s r) [] } := rfl

theorem exec_wr (r v : Byte) (s : State) :
    exec (.wr r v) s = .next (setResult (memWrite (beginStep s) r v) 0x00#8) := rfl

/-- Settles O21: each row of the map is one of the rows above, at its index. -/
theorem rdReadsTheRegisterMap : Obligations.RdReadsTheRegisterMap := by
  intro s
  refine ⟨fun r => ⟨exec_rd r s, encode_and_maskBits (.rd r)⟩, fun b hb => ctrlByte_getLsbD hb s.ctl,
    fun b hb => statusByte_getLsbD hb s, ?_, ⟨wrStateByte_toNat_mod s.we, wrStateByte_flags s.we⟩, ?_,
    fun i hi => ?_, fun j hj b hb => ?_, fun k hk => ?_, rfl, fun b hb => linesByte_getLsbD hb s, ?_,
    fun r hr => memRead_reserved s hr⟩
  · exact ⟨toNat_memRead_of_setWidth rfl, toNat_memRead_of_setWidth rfl, toNat_memRead_of_setWidth rfl,
      rfl, toNat_memRead_of_setWidth rfl, rfl, rfl, rfl⟩
  · exact ⟨toNat_memRead_of_setWidth rfl, rfl, toNat_memRead_of_setWidth rfl,
      toNat_memRead_of_setWidth rfl, rfl⟩
  · exact ⟨memRead_panelData s (toNat_ofNat_row (by omega)) hi,
      memRead_modData s (toNat_ofNat_row (by omega)) hi⟩
  · rw [memRead_exempt s (toNat_ofNat_row (by omega)) hj, memRead_query s (toNat_ofNat_row (by omega)) hj,
      tableBit_ofNat _ hj hb, tableBit_ofNat _ hj hb]
    exact ⟨rfl, rfl⟩
  · exact ⟨memRead_ccCode s (toNat_ofNat_row (by omega)) hk,
      memRead_ccLen s (toNat_ofNat_row (by omega)) hk⟩
  · exact ⟨toNat_memRead_of_setWidth rfl, rfl, toNat_memRead_of_setWidth rfl⟩

/-- Settles O22: by the rows of R106's case list. -/
theorem wrWritesTheRegisterMap : Obligations.WrWritesTheRegisterMap := by
  intro s v
  refine ⟨rfl, rfl, fun j hj => ?_, fun j hj => ?_, fun k hk => ?_, fun k hk => ?_, rfl,
    fun r hctrl hpart hrange => ?_, fun r => encode_and_maskBits (.wr r v)⟩
  · rw [exec_wr, memWrite_exempt _ v (toNat_ofNat_row (by omega)) hj]; rfl
  · rw [exec_wr, memWrite_query _ v (toNat_ofNat_row (by omega)) hj]; rfl
  · rw [exec_wr, memWrite_ccCode _ v (toNat_ofNat_row (by omega)) hk]; rfl
  · rw [exec_wr, memWrite_ccLen _ v (toNat_ofNat_row (by omega)) hk]; rfl
  · rw [exec_wr, memWrite_unwritable _ v ⟨hctrl, hpart, hrange⟩]; rfl

/-- Settles O24: the model clears a flag by `and not`, the statement by a choice on the mask's bit. -/
theorem clrClearsTheSelectedBits : Obligations.ClrClearsTheSelectedBits := by
  intro s m
  have clear (flag bit : Bool) : (flag && !bit) = if bit then false else flag := by
    cases bit <;> simp
  rw [← clear, ← clear]
  exact ⟨rfl, encode_and_maskBits (.clr m)⟩

/-- Settles O25: the meaning of NOP, whose word has no operand. -/
theorem nopIsInert : Obligations.NopIsInert := ⟨fun _ => rfl, rfl⟩

end Sys2Proof.Machine
end

section
/-! SUPPORT. The consumer (spec/43_consumer.md): bus presence (R96), the entry the consumer filter uses (R100),
and POP, MREAD and CRC, end by end (R97, R102, R103); the proofs of O46 to O48, O50 and O51. -/

namespace Sys2Proof.Machine

/-! ## Bus presence (R96) -/

/-- `PresenceUpdate` as one record: a state that already agrees is written unchanged. -/
theorem presenceUpdate_eq (limit now : Word) (b : Presence) :
    presenceUpdate limit now b = { b with
      connected := connNow limit now b
      conn_chg := b.conn_chg || decide (connNow limit now b ≠ b.connected) } := by
  rcases presenceUpdate_cases limit now b with ⟨hsame, e⟩ | ⟨hchange, e⟩ <;> rw [e]
  · simp [hsame]
  · simp [hchange]

/-- Settles O46: `conn_now` compares the elapsed time as a number; the limit of this hardware is the source's
literal. -/
theorem presenceFollowsTheGapTime : Obligations.PresenceFollowsTheGapTime :=
  ⟨fun limit now b => presenceUpdate_eq limit now b, rfl⟩

/-! ## The consumer filter (R100) -/

theorem ccMatch_eq_some_iff {f : FilterState} {cmd : Byte} {k : Nat} :
    ccMatch f cmd = some k ↔ k < 8 ∧ f.cc_en.getLsbD k = true ∧ (ccEntry f k).code = cmd ∧
      ∀ j < k, ¬(f.cc_en.getLsbD j = true ∧ (ccEntry f j).code = cmd) := by
  rw [ccMatch, List.find?_range_eq_some]
  simp only [List.mem_range, Bool.and_eq_true, beq_iff_eq, Bool.not_eq_true', ← Bool.not_eq_true]
  tauto

/-- Settles O48: the search goes up from entry 0. -/
theorem consumerFilterUsesTheLowestMatch : Obligations.ConsumerFilterUsesTheLowestMatch :=
  fun _ _ _ => ccMatch_eq_some_iff

theorem consumerFilter_of_none {f : FilterState} {frame : Frame}
    (h : ccMatch f (byteAt frame 0) = none) : consumerFilter frame f = (false, f) := by
  simp only [consumerFilter, h]

theorem consumerFilter_of_some {f : FilterState} {frame : Frame} {k : Nat}
    (h : ccMatch f (byteAt frame 0) = some k) : consumerFilter frame f =
      ((isRedundant (ccEntry f k).cache frame (ccEntry f k).len.toNat).1,
        setCcCache k (isRedundant (ccEntry f k).cache frame (ccEntry f k).len.toNat).2 f) := by
  simp only [consumerFilter, h]

/-! ## The CRC check (R97, R103) -/

/-- The check records its answer and lists ChecksumInvalid when it fails (R125). -/
theorem checkPanel_eq {s : State} {ok : Bool}
    (h : crcValid s.ctl.crc_exempt s.out.panel_data s.out.panel_bytes.toNat = ok) :
    checkPanel s = { s with
      out := { s.out with crc_ok := ok }
      io := { s.io with raised := s.io.raised ++ if ok then [] else [.checksumInvalid] } } := by
  subst h
  unfold checkPanel
  cases crcValid s.ctl.crc_exempt s.out.panel_data s.out.panel_bytes.toNat
  · rfl
  · simp [raiseIf]

theorem exec_crc (s : State) : exec .crc s =
    .next (setResult (checkPanel (beginStep s))
      (if (checkPanel (beginStep s)).out.crc_ok then 0x01#8 else 0x00#8)) := rfl

/-- Settles O51: the check on the panel output, its answer the result. -/
theorem crcChecksThePanelOutput : Obligations.CrcChecksThePanelOutput := by
  intro s ok
  refine ⟨?_, rfl⟩
  rw [exec_crc, checkPanel_eq (s := beginStep s) (ok := ok) rfl]
  rfl

/-! ## MREAD, end by end (R102) -/

section
variable {s : State}

theorem mreadStep_of_none (h : s.out.mod_capt = false) : mreadStep s = (s, 0x00#8) := by
  simp [mreadStep, h]

theorem mreadStep_of_short (h : ¬s.out.mod_capt = false) (hshort : s.out.mod_bits.toNat < 8) :
    mreadStep s = ({ s with out := { s.out with mod_capt := false } }, 0x06#8) := by
  simp [mreadStep, h, hshort]

theorem mreadStep_of_frame (h : ¬s.out.mod_capt = false) (hlong : ¬s.out.mod_bits.toNat < 8) :
    mreadStep s = filterModule { s with out := { s.out with mod_capt := false } } := by
  simp [mreadStep, h, hlong]

theorem filterModule_of_shown (h : s.ctl.proc_red = true) : filterModule s = (s, classifyModule s) := by
  simp [filterModule, h]

theorem filterModule_of_redundant (h : ¬s.ctl.proc_red = true)
    (hred : (isRedundant s.rf.mcache s.out.mod_data 16).1 = true) : filterModule s =
      (raise .redundantFrame { s with rf := { s.rf with
        mcache := (isRedundant s.rf.mcache s.out.mod_data 16).2 } }, 0x02#8) := by
  simp [filterModule, h, hred]

theorem filterModule_of_new (h : ¬s.ctl.proc_red = true)
    (hnew : ¬(isRedundant s.rf.mcache s.out.mod_data 16).1 = true) : filterModule s =
      ({ s with rf := { s.rf with mcache := (isRedundant s.rf.mcache s.out.mod_data 16).2 } },
        classifyModule s) := by
  simp only [filterModule, if_neg h, if_neg hnew]
  rfl
end

theorem exec_mread (s : State) : exec .mread s = conclude (mreadStep (beginStep s)) := rfl

/-- Settles O50: the tests of MREAD in their order. -/
theorem mreadFollowsItsRule : Obligations.MreadFollowsItsRule := by
  intro s o kind r
  refine ⟨rfl, ?_⟩
  rw [exec_mread]
  split_ifs with hnone hshort hshown hred
  · rw [mreadStep_of_none]
    exacts [rfl, hnone]
  · rw [mreadStep_of_short]
    exacts [rfl, hnone, hshort]
  · rw [mreadStep_of_frame, filterModule_of_shown]
    exacts [rfl, hshown, hnone, hshort]
  · rw [mreadStep_of_frame, filterModule_of_redundant]
    exacts [rfl, hshown, hred, hnone, hshort]
  · rw [mreadStep_of_frame, filterModule_of_new]
    exacts [rfl, hshown, hred, hnone, hshort]

/-! ## POP, end by end (R97 to R101) -/

section
variable {s : State} {was : Bool}

theorem popFrame_of_disconnected (hwas : was = true) (hnow : s.bus.connected = false) :
    popFrame was s = (raise .busDisconnected s, 0x04#8) := by
  simp [popFrame, hwas, hnow]

theorem popFrame_of_empty (h : ¬(was = true ∧ s.bus.connected = false)) (hlen : s.fb.buf_len = 0) :
    popFrame was s = (s, 0x00#8) := by
  simp_all [popFrame]

theorem popFrame_of_frame (h : ¬(was = true ∧ s.bus.connected = false)) (hlen : s.fb.buf_len ≠ 0) :
    popFrame was s = settlePanel (checkPanel (drainSlot s)) := by
  simp_all [popFrame]

theorem settlePanel_of_unsettled (hsettled : s.out.settled = false) (hbad : s.out.crc_ok = false) :
    settlePanel s = (s, 0x03#8) := by
  simp [settlePanel, hsettled, hbad]

theorem settlePanel_of_valid (h : s.out.settled = true ∨ s.out.crc_ok = true) :
    settlePanel s = filterPanel { s with out := { s.out with settled := true } } := by
  simp [settlePanel, h]

/-- The filter stands aside: redundant frames are shown, or no entry is enabled for the command. -/
theorem filterPanel_of_unfiltered
    (h : s.ctl.proc_red = true ∨ ccMatch s.rf (byteAt s.out.panel_data 0) = none) :
    filterPanel s = acceptPanel s := by
  unfold filterPanel
  split
  · rfl
  · next hhidden => rw [consumerFilter_of_none (h.resolve_left hhidden)]; rfl

theorem filterPanel_of_entry (hhidden : s.ctl.proc_red = false) {k : Nat}
    (hk : ccMatch s.rf (byteAt s.out.panel_data 0) = some k) {red : Bool} {cache : Cache}
    (hr : isRedundant (ccEntry s.rf k).cache s.out.panel_data (ccEntry s.rf k).len.toNat = (red, cache)) :
    filterPanel s =
      if red then (raise .redundantFrame { s with rf := setCcCache k cache s.rf }, 0x02#8)
      else acceptPanel { s with rf := setCcCache k cache s.rf } := by
  simp [filterPanel, hhidden, consumerFilter_of_some hk, hr]
end

/-- The drain step writes neither the parameters nor the step inputs, which the presence update reads. -/
theorem popStep_eq (s : State) : popStep s = popFrame (wstrDrainStep s).bus.connected
    { wstrDrainStep s with
      bus := presenceUpdate s.cfg.timing.t_bus_ms s.io.now_ms (wstrDrainStep s).bus } := by
  obtain ⟨hcfg, -, -, -, -, -, -, -, hio⟩ := wstrDrainStep_frame s
  simp only [popStep, hcfg, hio]

/-- Settles O47: the tests of POP in their order; every end past the empty buffer starts from the slot drained
and checked. -/
theorem popFollowsItsRule : Obligations.PopFollowsItsRule := by
  intro s d b rd f n ok fb out accepted crcBad
  have hpop : exec .pop s = conclude (popFrame d.bus.connected { d with bus := b }) :=
    congrArg conclude (popStep_eq (beginStep s))
  have hchecked : checkPanel (drainSlot { d with bus := b }) =
      { d with bus := b, fb := fb, out := out, io := { d.io with raised := crcBad } } :=
    checkPanel_eq rfl
  refine ⟨fun hwas hnow => ?_, fun hconn hlen => ?_, fun hconn hlen hsettled hbad => ?_,
    fun hconn hlen hvalid hpass => ?_, fun k hconn hlen hvalid hhidden hk => ?_, rfl⟩
  · rw [hpop, popFrame_of_disconnected]
    exacts [rfl, hwas, hnow]
  · rw [hpop, popFrame_of_empty]
    exacts [rfl, hconn, hlen]
  · rw [hpop, popFrame_of_frame, hchecked, settlePanel_of_unsettled]
    exacts [rfl, hsettled, hbad, hconn, hlen]
  · rw [hpop, popFrame_of_frame, hchecked, settlePanel_of_valid, filterPanel_of_unfiltered]
    exacts [rfl, hpass, hvalid, hconn, hlen]
  · rw [hpop, popFrame_of_frame, hchecked, settlePanel_of_valid, filterPanel_of_entry, conclude_ite]
    exacts [rfl, hhidden, hk, rfl, hvalid, hconn, hlen]

end Sys2Proof.Machine
end

section
/-! SUPPORT. The emission of a key (44_write_engine.md section 3, R113 to R116): one falling edge at any bit
position, by the engine's state, then every falling edge of a frame; and the proofs of O54, O55 and O56. -/

namespace Sys2Proof.Machine

/-! ## One falling edge (R113) -/

section
variable (p : Params) {T : Nat} {B : BitVec 5} {cmd : Byte} {w : WriteEngine}

theorem writeStep_of_alarm (h : alarmState w.wr_state = true) (T : Nat) (B : BitVec 5) (cmd : Byte) :
    writeStep p T B cmd w = alarmStep T w := by
  rcases writeStep_cases p T B cmd w with ⟨-, e⟩ | ⟨hstate | hstate, -⟩ | ⟨hstate | hstate, -⟩
  · exact e
  all_goals simp [alarmState, hstate] at h

theorem writeStep_of_regular (h : w.wr_state = .armReg ∨ w.wr_state = .emitReg) (T : Nat)
    (B : BitVec 5) (cmd : Byte) : writeStep p T B cmd w = regularStep p T B cmd w := by
  rcases h with h | h <;> simp [writeStep, h]

theorem writeStep_of_rest (h : w.wr_state = .idle ∨ w.wr_state = .astHold) (T : Nat)
    (B : BitVec 5) (cmd : Byte) : writeStep p T B cmd w = w := by
  rcases h with h | h <;> simp [writeStep, h]
end

/-! ## One falling edge of an alarm key (R114) -/

/-- The two passes of an alarm key: the state that waits for position 1, the state that emits, and where the
pass ends. -/
inductive AlarmPass : WrState → WrState → WrState → Prop where
  | first : AlarmPass .armAlarm .emitAlarm .repeatArmed
  | again : AlarmPass .repeatArmed .emitRepeat .idle

theorem AlarmPass.alarmState_eq_true {wait emit done st : WrState} (pass : AlarmPass wait emit done)
    (h : st = wait ∨ st = emit) : alarmState st = true := by
  cases pass <;> rcases h with rfl | rfl <;> rfl

theorem alarmStep_outside {T : Nat} (hT : T = 0 ∨ 8 < T) (w : WriteEngine) : alarmStep T w = w := by
  simp only [alarmStep]
  rw [if_neg (by omega), if_neg (by omega)]

section
variable {wait emit done : WrState} (pass : AlarmPass wait emit done) (p : Params) {T : Nat}
  {w : WriteEngine} (B : BitVec 5) (cmd : Byte)
include pass

theorem writeStep_alarm_start (h : w.wr_state = wait ∨ w.wr_state = emit) :
    writeStep p 1 B cmd w = { w with wr_line := !w.wr_key.getLsbD 7, wr_state := emit } := by
  rw [writeStep_of_alarm p (pass.alarmState_eq_true h)]
  cases pass <;> rcases h with h | h <;> simp [alarmStep, driveBit, h]

theorem writeStep_alarm_wait (h : w.wr_state = wait) (hT : T ≠ 1) : writeStep p T B cmd w = w := by
  rw [writeStep_of_alarm p (pass.alarmState_eq_true (.inl h))]
  cases pass <;> simp [alarmStep, h, hT]

theorem writeStep_alarm_bit (h : w.wr_state = emit) (hlo : 2 ≤ T) (hhi : T < 8) :
    writeStep p T B cmd w = { w with wr_line := !w.wr_key.getLsbD (8 - T) } := by
  have hT : T ≠ 1 ∧ T ≤ 8 ∧ T ≠ 8 := by omega
  rw [writeStep_of_alarm p (pass.alarmState_eq_true (.inr h))]
  cases pass <;> simp [alarmStep, driveBit, h, hlo, hT]

theorem writeStep_alarm_end (h : w.wr_state = emit) :
    writeStep p 8 B cmd w = { w with wr_line := !w.wr_key.getLsbD 0, wr_state := done } := by
  rw [writeStep_of_alarm p (pass.alarmState_eq_true (.inr h))]
  cases pass <;> simp [alarmStep, driveBit, h]

theorem writeStep_alarm_outside (h : w.wr_state = wait ∨ w.wr_state = emit) (hT : T = 0 ∨ 8 < T) :
    writeStep p T B cmd w = w := by
  rw [writeStep_of_alarm p (pass.alarmState_eq_true h)]
  exact alarmStep_outside hT w

/-- Past its end a pass is at rest for the frame: it waits for a position 1 or is IDLE. -/
theorem writeStep_alarm_done (h : w.wr_state = done) (hT : T ≠ 1) : writeStep p T B cmd w = w := by
  cases pass with
  | first => exact writeStep_alarm_wait .again p B cmd h hT
  | again => exact writeStep_of_rest p (.inl h) T B cmd
end

/-! ## One falling edge of a regular key (R115) -/

section
variable {p : Params} {T : Nat} {B : BitVec 5} {cmd : Byte} {w : WriteEngine}

theorem regGate_iff :
    regGate p T B cmd w = true ↔ 8 ≤ T ∧ cmd = statusCmd p w.wr_group ∧ B = w.wr_byte := by
  simp [regGate, and_assoc]

/-- With the gate closed nothing is driven. -/
theorem writeStep_regular_closed (h : w.wr_state = .armReg ∨ w.wr_state = .emitReg)
    (hgate : T < 8 ∨ cmd ≠ statusCmd p w.wr_group ∨ B ≠ w.wr_byte) : writeStep p T B cmd w = w := by
  have hclosed : ¬regGate p T B cmd w = true := by
    rw [regGate_iff, not_and_or, not_and_or, Nat.not_le]
    exact hgate
  rw [writeStep_of_regular p h]
  simp [regularStep, hclosed]

theorem writeStep_regular_wait (h : w.wr_state = .armReg) (hT : T ≠ w.wr_bit.toNat) :
    writeStep p T B cmd w = w := by
  rw [writeStep_of_regular p (.inl h)]
  simp [regularStep, h, hT]

theorem writeStep_regular_outside (h : w.wr_state = .armReg ∨ w.wr_state = .emitReg)
    (hT : T < w.wr_bit.toNat ∨ w.wr_bit.toNat + 7 < T) : writeStep p T B cmd w = w := by
  have hstart : T ≠ w.wr_bit.toNat := by omega
  have hbits : ¬(w.wr_bit.toNat < T ∧ T ≤ w.wr_bit.toNat + 7) := by omega
  rw [writeStep_of_regular p h]
  simp [regularStep, hstart, hbits]

section
variable (hT : 8 ≤ T) (hcmd : cmd = statusCmd p w.wr_group) (hB : B = w.wr_byte)
include hT hcmd hB

theorem writeStep_regular_start (h : w.wr_state = .armReg ∨ w.wr_state = .emitReg)
    (hstart : T = w.wr_bit.toNat) : writeStep p T B cmd w =
      { w with wr_line := !w.wr_key.getLsbD 7, wr_state := .emitReg } := by
  rw [writeStep_of_regular p h]
  simp [regularStep, driveBit, regGate_iff.2 ⟨hT, hcmd, hB⟩, ← hstart]

theorem writeStep_regular_bit (h : w.wr_state = .emitReg) (hlo : w.wr_bit.toNat < T)
    (hhi : T < w.wr_bit.toNat + 7) : writeStep p T B cmd w =
      { w with wr_line := !w.wr_key.getLsbD (7 - (T - w.wr_bit.toNat)) } := by
  have hpos : T ≠ w.wr_bit.toNat ∧ T ≤ w.wr_bit.toNat + 7 ∧ T ≠ w.wr_bit.toNat + 7 := by omega
  rw [writeStep_of_regular p (.inr h)]
  simp [regularStep, driveBit, regGate_iff.2 ⟨hT, hcmd, hB⟩, h, hlo, hpos]

/-- The eighth bit ends the key: IDLE, or the hold with its skip flag after the acknowledgement-wait key. -/
theorem writeStep_regular_end (h : w.wr_state = .emitReg) (hend : T = w.wr_bit.toNat + 7) :
    writeStep p T B cmd w = if w.wr_ast = true
      then { w with wr_line := !w.wr_key.getLsbD 0, wr_state := .astHold, ast_skip := true }
      else { w with wr_line := !w.wr_key.getLsbD 0, wr_state := .idle } := by
  have hopen := regGate_iff.2 ⟨hT, hcmd, hB⟩
  subst hend
  rw [writeStep_of_regular p (.inr h)]
  simp [regularStep, endRegular, driveBit, hopen, h]
end
end

/-! ## The falling edges of a frame (R66, R113) -/

section
variable {p : Params} {cmd : Byte} {B : Nat → BitVec 5} {w : WriteEngine}

/-- An engine that no falling edge of the frame changes has its line released and nothing else. -/
theorem fallsThrough_of_unchanged (h : ∀ T, writeStep p T (B T) cmd (releaseLine w) = releaseLine w)
    (T : Nat) : fallsThrough p cmd B w T = releaseLine w := by
  induction T with
  | zero => exact h 0
  | succ T ih => rw [fallsThrough, ih]; exact h (T + 1)
end

/-! ## An alarm key through a frame (R114) -/

section
variable {wait emit done : WrState} (pass : AlarmPass wait emit done) {w : WriteEngine}
  (h : w.wr_state = wait ∨ w.wr_state = emit) (p : Params) (cmd : Byte) (B : Nat → BitVec 5) {T : Nat}
include pass h

theorem fallsThrough_alarm_zero : fallsThrough p cmd B w 0 = releaseLine w :=
  writeStep_alarm_outside pass p (B 0) cmd (w := releaseLine w) h (.inl rfl)

theorem fallsThrough_alarm_bit (hlo : 1 ≤ T) (hhi : T < 8) : fallsThrough p cmd B w T =
    { w with wr_line := !w.wr_key.getLsbD (8 - T), wr_state := emit } := by
  induction T, hlo using Nat.le_induction with
  | base =>
    rw [fallsThrough, fallsThrough_alarm_zero pass h]
    exact writeStep_alarm_start pass p (B 1) cmd (w := releaseLine w) h
  | succ T hlo ih =>
    rw [fallsThrough, ih (by omega)]
    exact writeStep_alarm_bit pass p _ cmd (w := { w with wr_line := false, wr_state := emit }) rfl
      (by omega) hhi

theorem fallsThrough_alarm_end : fallsThrough p cmd B w 8 =
    { w with wr_line := !w.wr_key.getLsbD 0, wr_state := done } := by
  rw [fallsThrough, fallsThrough_alarm_bit pass h p cmd B (by decide) (by decide)]
  exact writeStep_alarm_end pass p (B 8) cmd (w := { w with wr_line := false, wr_state := emit }) rfl

theorem fallsThrough_alarm_past (hT : 8 < T) : fallsThrough p cmd B w T =
    { w with wr_line := false, wr_state := done } := by
  induction T, hT using Nat.le_induction with
  | base =>
    rw [fallsThrough, fallsThrough_alarm_end pass h]
    exact writeStep_alarm_done pass p _ cmd (w := { w with wr_line := false, wr_state := done }) rfl
      (by decide)
  | succ T hT ih =>
    rw [fallsThrough, ih]
    exact writeStep_alarm_done pass p _ cmd (w := { w with wr_line := false, wr_state := done }) rfl
      (by omega)

/-- What one pass does through a frame: the complemented bits at positions 1..8, the line released elsewhere,
the emitting state before the eighth and the end of the pass from it on. -/
theorem alarmPass_through_frame :
    (∀ T, 1 ≤ T → T ≤ 8 → (fallsThrough p cmd B w T).wr_line = !w.wr_key.getLsbD (8 - T)) ∧
    (∀ T, T = 0 ∨ 8 < T → (fallsThrough p cmd B w T).wr_line = false) ∧
    (∀ T, 1 ≤ T → T < 8 → (fallsThrough p cmd B w T).wr_state = emit) ∧
    (∀ T, 8 ≤ T → (fallsThrough p cmd B w T).wr_state = done) ∧
    ∀ T, fallsThrough p cmd B w T = { w with
      wr_state := (fallsThrough p cmd B w T).wr_state, wr_line := (fallsThrough p cmd B w T).wr_line } := by
  refine ⟨fun T hlo hhi => ?_, fun T hout => ?_, fun T hlo hhi => ?_, fun T hend => ?_, fun T => ?_⟩
  · rcases hhi.lt_or_eq with hT | rfl
    · rw [fallsThrough_alarm_bit pass h p cmd B hlo hT]
    · rw [fallsThrough_alarm_end pass h]
  · rcases hout with rfl | hT
    · rw [fallsThrough_alarm_zero pass h]; rfl
    · rw [fallsThrough_alarm_past pass h p cmd B hT]
  · rw [fallsThrough_alarm_bit pass h p cmd B hlo hhi]
  · rcases hend.eq_or_lt with rfl | hT
    · rw [fallsThrough_alarm_end pass h]
    · rw [fallsThrough_alarm_past pass h p cmd B hT]
  · rcases Nat.lt_trichotomy T 8 with hT | rfl | hT
    · rcases Nat.eq_zero_or_pos T with rfl | hlo
      · rw [fallsThrough_alarm_zero pass h]; rfl
      · rw [fallsThrough_alarm_bit pass h p cmd B hlo hT]
    · rw [fallsThrough_alarm_end pass h]
    · rw [fallsThrough_alarm_past pass h p cmd B hT]
end

/-- Settles O56: the first sending and the repeat are the two passes of one emission. -/
theorem alarmKeyIsSentTwice : Obligations.AlarmKeyIsSentTwice := by
  refine ⟨fun p cmd cmd' B B' w hw => ?_, fun p T B cmd w => ⟨?_, ?_, ?_, fun hemit => ⟨?_, ?_, ?_⟩⟩⟩
  · obtain ⟨hbits, hout, hemit, hdone, hkept⟩ := alarmPass_through_frame .first hw p cmd B
    refine ⟨hbits, hout, hemit, hdone, hkept, fun v hkey hv => ?_⟩
    rw [← hkey]
    exact alarmPass_through_frame .again hv p cmd' B'
  · rintro hw rfl
    exact writeStep_alarm_start .first p B cmd hw
  · rintro hw rfl
    exact writeStep_alarm_start .again p B cmd hw
  · rintro (hw | hw) hT
    · exact writeStep_alarm_wait .first p B cmd hw hT
    · exact writeStep_alarm_wait .again p B cmd hw hT
  · intro hlo hhi
    rcases hemit with hw | hw
    · exact writeStep_alarm_bit .first p B cmd hw hlo hhi
    · exact writeStep_alarm_bit .again p B cmd hw hlo hhi
  · rintro rfl
    rcases hemit with hw | hw
    · rw [writeStep_alarm_end .first p B cmd hw, if_pos hw]
    · rw [writeStep_alarm_end .again p B cmd hw, if_neg (by simp [hw])]
  · intro hT
    rcases hemit with hw | hw
    · exact writeStep_alarm_outside .first p B cmd (.inr hw) hT
    · exact writeStep_alarm_outside .again p B cmd (.inr hw) hT

/-! ## A regular key through a frame (R115, R116) -/

section
variable {p : Params} {B : Nat → BitVec 5} {w : WriteEngine} {T : Nat}
  (h : w.wr_state = .armReg ∨ w.wr_state = .emitReg)
include h

theorem fallsThrough_regular_before (cmd : Byte) (hT : T < w.wr_bit.toNat) :
    fallsThrough p cmd B w T = releaseLine w := by
  induction T with
  | zero => exact writeStep_regular_outside (w := releaseLine w) h (.inl hT)
  | succ T ih =>
    rw [fallsThrough, ih (by omega)]
    exact writeStep_regular_outside (w := releaseLine w) h (.inl hT)

section
variable (hbit : 8 ≤ w.wr_bit.toNat)
  (hB : ∀ T, w.wr_bit.toNat ≤ T → T ≤ w.wr_bit.toNat + 7 → B T = w.wr_byte)
include hbit hB

theorem fallsThrough_regular_bit (hlo : w.wr_bit.toNat ≤ T) (hhi : T < w.wr_bit.toNat + 7) :
    fallsThrough p (statusCmd p w.wr_group) B w T =
      { w with wr_line := !w.wr_key.getLsbD (7 - (T - w.wr_bit.toNat)), wr_state := .emitReg } := by
  induction T, hlo using Nat.le_induction with
  | base =>
    obtain ⟨T, hT⟩ : ∃ T, w.wr_bit.toNat = T + 1 := ⟨w.wr_bit.toNat - 1, by omega⟩
    rw [Nat.sub_self, hT, fallsThrough, fallsThrough_regular_before h _ (by omega)]
    exact writeStep_regular_start (w := releaseLine w) (by omega) rfl (hB _ hT.le (by omega)) h hT.symm
  | succ T hlo ih =>
    rw [fallsThrough, ih (by omega)]
    exact writeStep_regular_bit (w := { w with wr_line := false, wr_state := .emitReg }) (by omega) rfl
      (hB _ (by omega) (by omega)) rfl (Nat.lt_succ_of_le hlo) hhi

theorem fallsThrough_regular_end :
    fallsThrough p (statusCmd p w.wr_group) B w (w.wr_bit.toNat + 7) =
      { w with
        wr_line := !w.wr_key.getLsbD 0
        wr_state := if w.wr_ast = true then .astHold else .idle
        ast_skip := if w.wr_ast = true then true else w.ast_skip } := by
  rw [fallsThrough, fallsThrough_regular_bit h hbit hB (by omega) (by omega)]
  refine (writeStep_regular_end (w := { w with wr_line := false, wr_state := .emitReg })
    (Nat.le_add_right_of_le hbit) rfl (hB _ (Nat.le_add_right _ _) le_rfl) rfl rfl).trans ?_
  dsimp only
  split <;> rfl

theorem fallsThrough_regular_past (hT : w.wr_bit.toNat + 7 < T) :
    fallsThrough p (statusCmd p w.wr_group) B w T =
      { w with
        wr_line := false
        wr_state := if w.wr_ast = true then .astHold else .idle
        ast_skip := if w.wr_ast = true then true else w.ast_skip } := by
  have hrest : (if w.wr_ast = true then WrState.astHold else .idle) = .idle ∨
      (if w.wr_ast = true then WrState.astHold else .idle) = .astHold := by
    split
    · exact .inr rfl
    · exact .inl rfl
  induction T, hT using Nat.le_induction with
  | base =>
    rw [fallsThrough, fallsThrough_regular_end h hbit hB]
    exact writeStep_of_rest p hrest ..
  | succ T hT ih =>
    rw [fallsThrough, ih]
    exact writeStep_of_rest p hrest ..
end
end

/-- Settles O54: before, at and past the eight positions of the key. -/
theorem regularKeyBitMapping : Obligations.RegularKeyBitMapping := by
  refine ⟨fun p B w h hbit hB T => ?_, fun p T B cmd w hT hcmd hgate => ⟨?_, ?_, ?_⟩⟩
  · refine ⟨fun hT => fallsThrough_regular_before h _ hT, fun j hj hT => ?_, fun hlo hhi => ?_,
      fun hend => ?_, fun hpast => ?_, ?_⟩
    · subst hT
      rcases (Nat.le_of_lt_succ hj).lt_or_eq with hj | rfl
      · rw [fallsThrough_regular_bit h hbit hB (by omega) (by omega), Nat.add_sub_cancel_left]
      · rw [fallsThrough_regular_end h hbit hB]
    · rw [fallsThrough_regular_bit h hbit hB hlo hhi]
    · rcases hend.eq_or_lt with rfl | hpast
      · rw [fallsThrough_regular_end h hbit hB]
        exact ⟨rfl, rfl⟩
      · rw [fallsThrough_regular_past h hbit hB hpast]
        exact ⟨rfl, rfl⟩
    · rw [fallsThrough_regular_past h hbit hB hpast]
    · rcases Nat.lt_trichotomy T (w.wr_bit.toNat + 7) with hhi | rfl | hpast
      · rcases Nat.lt_or_ge T w.wr_bit.toNat with hT | hlo
        · rw [fallsThrough_regular_before h _ hT]; rfl
        · rw [fallsThrough_regular_bit h hbit hB hlo hhi]
      · rw [fallsThrough_regular_end h hbit hB]
      · rw [fallsThrough_regular_past h hbit hB hpast]
  · exact writeStep_regular_start hT hcmd hgate
  · exact writeStep_regular_bit hT hcmd hgate
  · exact writeStep_regular_end hT hcmd hgate

/-- Settles O55: a key that no falling edge of the frame changes waits through it. -/
theorem regularKeyWaitsForItsFrame : Obligations.RegularKeyWaitsForItsFrame := by
  refine ⟨fun p cmd B w h hwait => fallsThrough_of_unchanged fun T => ?_, fun p T B cmd w =>
    ⟨writeStep_regular_closed, writeStep_regular_wait, fun h => writeStep_regular_outside (.inr h)⟩⟩
  rcases hwait with hcmd | hbyte | ⟨harmed, hbit⟩
  · exact writeStep_regular_closed (w := releaseLine w) h (.inr (.inl hcmd))
  · exact writeStep_regular_closed (w := releaseLine w) h (.inr (.inr (hbyte T)))
  · rcases Nat.lt_or_ge T 8 with hT | hT
    · exact writeStep_regular_closed (w := releaseLine w) h (.inl hT)
    · exact writeStep_regular_wait (w := releaseLine w) harmed (Nat.ne_of_gt (hbit.trans_le hT))

end Sys2Proof.Machine
end

section
/-! SUPPORT. The submission of keys, one and in strings, and the hold (44_write_engine.md sections 2, 4 and 5):
`Submit(c)`, the hold release and the string queue, each case by case; and the proofs of O52, O53 and O57 to
O59. -/

namespace Sys2Proof.Machine

/-! ## Submission (R110, R111) -/

theorem isDigit_iff {c : Byte} : isDigit c = true ↔ 0x30 ≤ c.toNat ∧ c.toNat ≤ 0x39 := by
  simp [isDigit, BitVec.le_def]

/-- The debounce is a comparison of numbers, met at exactly `T_ALARM_MS` (R111, D26). -/
theorem debouncing_iff {limit now : Word} {w : WriteEngine} : debouncing limit now w = true ↔
    w.alarm_seen = true ∧ (now - w.t_alarm).toNat < limit.toNat := by
  simp [debouncing, BitVec.lt_def]

section
variable {p : Params} {now : Word} {c : Byte} {w : WriteEngine}

theorem submitKey_of_unknown (h : keyOf p c = none) : submitKey p now c w = (w, 0x11#8) := by
  simp only [submitKey, h]

section
variable {k : KeyEntry} (hkey : keyOf p c = some k)
include hkey

theorem submitKey_of_busy (h : w.wr_state ≠ .idle) : submitKey p now c w = (w, 0x12#8) := by
  simp only [submitKey, hkey, if_pos h]

variable (hidle : w.wr_state = .idle)
include hidle

theorem submitKey_of_debouncing (h : debouncing p.timing.t_alarm_ms now w = true) :
    submitKey p now c w = (w, 0x13#8) := by
  simp [submitKey, hkey, hidle, h]

variable (hready : ¬debouncing p.timing.t_alarm_ms now w = true)
include hready

theorem submitKey_of_alarm (h : k.alarm = true) :
    submitKey p now c w = (armAlarmKey now k.code w, 0x10#8) := by
  simp [submitKey, hkey, hidle, hready, h]

theorem submitKey_of_regular (h : k.alarm = false) :
    submitKey p now c w = (armRegularKey p c k.code w, 0x10#8) := by
  simp [submitKey, hkey, hidle, hready, h]
end

theorem submit_of_disabled {en : Bool} (h : en = false) : submit p en now c w = (w, 0x15#8) := by
  simp [submit, h]

section
variable {en : Bool} (hen : en = true)
include hen

theorem submit_of_partitionChar (h : c = 0x2F#8) :
    submit p en now c w = ({ w with part_prefix := true }, 0x14#8) := by
  simp [submit, hen, h, partitionChar]

variable (hc : c ≠ 0x2F#8)
include hc

theorem submit_of_digit (hprefix : w.part_prefix = true) (h : isDigit c = true) :
    submit p en now c w =
      ({ w with part_prefix := false, wr_part := partitionOf p (c.toNat - 0x30) }, 0x14#8) := by
  simp [submit, hen, partitionChar, hc, hprefix, h]

theorem submit_of_dropped_prefix (hprefix : w.part_prefix = true) (h : ¬isDigit c = true) :
    submit p en now c w = submitKey p now c { w with part_prefix := false } := by
  simp [submit, hen, partitionChar, hc, hprefix, h]

theorem submit_of_no_prefix (hprefix : w.part_prefix = false) :
    submit p en now c w = submitKey p now c w := by
  simp [submit, hen, partitionChar, hc, hprefix]
end

/-- `Submit(c)` gives what R111 says, in every case. -/
theorem submit_says (en : Bool) : SubmitSays p en now c w (submit p en now c w) := by
  unfold SubmitSays
  intro debounce refused
  have hkey {w' : WriteEngine} (hsubmit : submit p en now c w = submitKey p now c w') : refused w' := by
    have hready (h : w'.alarm_seen = true → debounce ≤ (now - w'.t_alarm).toNat) :
        ¬debouncing p.timing.t_alarm_ms now w' = true := by
      rw [debouncing_iff, not_and, Nat.not_lt]
      exact h
    refine ⟨fun hnone => ?_, fun k hk hbusy => ?_, fun k hk hidle hseen hless => ?_,
      fun k hk hidle hlater halarm => ?_, fun k hk hidle hlater hregular => ?_⟩ <;> rw [hsubmit]
    · exact submitKey_of_unknown hnone
    · exact submitKey_of_busy hk hbusy
    · exact submitKey_of_debouncing hk hidle (debouncing_iff.2 ⟨hseen, hless⟩)
    · exact submitKey_of_alarm hk hidle (hready hlater) halarm
    · exact submitKey_of_regular hk hidle (hready hlater) hregular
  refine ⟨submit_of_disabled, submit_of_partitionChar, fun hen hc hprefix hlo hhi => ?_,
    fun hen hc hprefix hother => hkey ?_, fun hen hc hnone => hkey ?_⟩
  · exact submit_of_digit hen hc hprefix (isDigit_iff.2 ⟨hlo, hhi⟩)
  · exact submit_of_dropped_prefix hen hc hprefix (by rw [isDigit_iff]; omega)
  · exact submit_of_no_prefix hen hc hnone
end

theorem exec_wkey (c : Byte) (s : State) : exec (.wkey c) s =
    .next { s with
      we := (submit s.cfg s.ctl.wr_en s.io.now_ms c s.we).1
      io := s.io.done (submit s.cfg s.ctl.wr_en s.io.now_ms c s.we).2 [] } := rfl

/-- Settles O52: the engine and the result of `Submit(c)`. -/
theorem wkeySubmitsTheKey : Obligations.WkeySubmitsTheKey :=
  fun c s => ⟨_, submit_says s.ctl.wr_en, exec_wkey c s, encode_and_maskBits (.wkey c)⟩

/-- An entry within an array is the one `vget` reads. -/
theorem some_vget {α : Type} {n : Nat} (v : Vector α n) {i : Nat} (d : α) (h : i < n) :
    some (vget v i d) = v[i]? := by
  rw [vget_of_lt v i d h, Vector.getElem?_eq_getElem h]

/-- The group bit of a partition in 1..8 is the quotient itself (R110). -/
theorem groupOf_toNat {part : BitVec 4} (h : part.toNat ≤ 8) :
    (groupOf part).toNat = (part.toNat - 1) / 4 := by
  have hbit : (part.toNat - 1) / 4 = 0 ∨ (part.toNat - 1) / 4 = 1 := by omega
  rcases hbit with hbit | hbit <;> simp [groupOf, hbit]

theorem some_statusCmd (p : Params) (group : Bool) :
    some (statusCmd p group) = p.status_cmd[group.toNat]? := by
  cases group with
  | false => exact some_vget p.status_cmd 0 Nat.zero_lt_two
  | true => exact some_vget p.status_cmd 0 Nat.one_lt_two

/-- Settles O53: each target is an entry of its parameter array. -/
theorem partitionTargets : Obligations.PartitionTargets := by
  intro p part _ hpart
  refine ⟨rfl, groupOf_toNat hpart, some_vget _ _ (Nat.mod_lt _ (by decide)), ?_⟩
  rw [some_statusCmd, groupOf_toNat hpart]

/-! ## The hold (R117) -/

section
variable {p : Params} {en has : Bool} {cmd : Byte} {w : WriteEngine}

theorem holdRelease_of_disabled (h : en = false) : holdRelease p en has cmd w = w := by
  simp [holdRelease, h]

section
variable (hen : en = true) (hold : w.wr_state = .astHold)
include hen hold

theorem holdRelease_of_skip (hskip : w.ast_skip = true) :
    holdRelease p en has cmd w = { w with ast_skip := false } := by
  simp [holdRelease, asteriskRelease, hen, hold, hskip]

variable (hskip : w.ast_skip = false)
include hskip

theorem holdRelease_of_status (h : has = true ∧ cmd = statusCmd p w.wr_group) :
    holdRelease p en has cmd w = { w with wr_state := .idle } := by
  simp [holdRelease, asteriskRelease, hen, hold, hskip, h]

theorem holdRelease_of_other (h : ¬(has = true ∧ cmd = statusCmd p w.wr_group)) :
    holdRelease p en has cmd w = w := by
  simp [holdRelease, asteriskRelease, hen, hold, hskip, h]
end
end

/-- Settles O57: the hold release of a completion, whose frame has a command from its eighth bit on. -/
theorem holdIsReleasedByALaterStatusFrame : Obligations.HoldIsReleasedByALaterStatusFrame := by
  intro s w status
  rw [complete_we]
  have hstatus : status ↔ hasCmd s.bs = true ∧ byteAt s.bs.acc_p 0 = statusCmd s.cfg w.wr_group := by
    rw [hasCmd_iff]
  rw [hstatus]
  exact ⟨fun hfree => holdRelease_of_ne_astHold hfree .., holdRelease_of_disabled, holdRelease_of_skip,
    holdRelease_of_status, holdRelease_of_other⟩

/-! ## The string queue (R119 to R122) -/

theorem exec_wstrPush (c : Byte) (s : State) :
    exec (.wstrPush c) s = conclude (pushChar c (beginStep s)) := rfl

section
variable {s : State} (c : Byte)

theorem pushChar_of_disabled (h : s.ctl.wr_en = false) : pushChar c s = (s, 0x15#8) := by
  simp [pushChar, h]

section
variable (hen : ¬s.ctl.wr_en = false)
include hen

theorem pushChar_of_full (h : s.sq.wstr_len = 32) : pushChar c s = (s, 0x16#8) := by
  simp [pushChar, hen, h]

theorem pushChar_of_room (h : ¬s.sq.wstr_len = 32) : pushChar c s =
    ({ s with sq := { s.sq with
      wstr_q := vset s.sq.wstr_q s.sq.wstr_len.toNat c, wstr_len := s.sq.wstr_len + 1 } }, 0x10#8) := by
  have hroom : s.sq.wstr_len.toNat ≠ 32 := fun e => h (BitVec.eq_of_toNat_eq e)
  simp [pushChar, hen, hroom]
end
end

/-- Settles O58: the push turned away with the keypad disabled, then with the queue full. -/
theorem stringQueueCommands : Obligations.StringQueueCommands := by
  refine fun c s => ⟨⟨rfl, rfl⟩, ⟨?_, encode_and_maskBits (.wstrPush c)⟩, rfl, rfl⟩
  rw [exec_wstrPush]
  split_ifs with hoff hfull
  · rw [pushChar_of_disabled]
    exacts [rfl, hoff]
  · rw [pushChar_of_full]
    exacts [rfl, hoff, hfull]
  · rw [pushChar_of_room]
    exacts [rfl, hoff, hfull]

theorem wrReady_iff {w : WriteEngine} : wrReady w = true ↔ w.wr_state = .idle := beq_iff_eq

theorem atTerminator_iff {q : StringQueue} : atTerminator q = true ↔
    q.wstr_len ≤ q.wstr_cur ∨ vget q.wstr_q q.wstr_cur.toNat 0 = 0x00#8 := by
  simp [atTerminator]

section
variable {s : State}

theorem wstrDrainStep_of_rest (h : s.sq.wstr_active = false ∨ s.we.wr_state ≠ .idle) :
    wstrDrainStep s = s := by
  rcases h with h | h
  · exact wstrDrainStep_of_inactive h
  · simp [wstrDrainStep, wrReady, h]

section
variable (hactive : s.sq.wstr_active = true) (hidle : s.we.wr_state = .idle)
include hactive hidle

theorem wstrDrainStep_of_terminator (h : atTerminator s.sq = true) :
    wstrDrainStep s = { s with sq := abandonQueue s.sq } := by
  simp [wstrDrainStep, hactive, wrReady_iff.2 hidle, h]

theorem wstrDrainStep_of_char (h : ¬atTerminator s.sq = true) : wstrDrainStep s =
    { s with
      we := (submit s.cfg s.ctl.wr_en s.io.now_ms (vget s.sq.wstr_q s.sq.wstr_cur.toNat 0) s.we).1
      sq := queueAfter
        (submit s.cfg s.ctl.wr_en s.io.now_ms (vget s.sq.wstr_q s.sq.wstr_cur.toNat 0) s.we).2 s.sq } := by
  simp [wstrDrainStep, hactive, wrReady_iff.2 hidle, h, submitChar]
end
end

/-- Settles O59: the drain at rest, at the terminator, and on a character. -/
theorem stringDrainStep : Obligations.StringDrainStep := by
  intro s c empty stop
  have hstop : atTerminator s.sq = true ↔ stop := atTerminator_iff
  rw [← hstop]
  exact ⟨wstrDrainStep_of_rest, wstrDrainStep_of_terminator, fun hactive hidle hmore =>
    ⟨_, submit_says s.ctl.wr_en, wstrDrainStep_of_char hactive hidle hmore⟩⟩

end Sys2Proof.Machine
end

section
/-! SUPPORT. The engine under every operation (44_write_engine.md section 1, R108; R66, R67, R149): which ones
write it, and which the line; and the proofs of O17 and O60. -/

namespace Sys2Proof.Machine

/-! ## The operations that do not speak to the engine -/

theorem filterPanel_we_sq (s : State) :
    (filterPanel s).1.we = s.we ∧ (filterPanel s).1.sq = s.sq := by
  unfold filterPanel
  split
  · exact ⟨rfl, rfl⟩
  · dsimp only
    split <;> exact ⟨rfl, rfl⟩

theorem settlePanel_we_sq (s : State) :
    (settlePanel s).1.we = s.we ∧ (settlePanel s).1.sq = s.sq := by
  unfold settlePanel
  split
  · exact filterPanel_we_sq _
  · exact ⟨rfl, rfl⟩

theorem popFrame_we_sq (was : Bool) (s : State) :
    (popFrame was s).1.we = s.we ∧ (popFrame was s).1.sq = s.sq := by
  unfold popFrame
  split
  · exact ⟨rfl, rfl⟩
  · split
    · exact ⟨rfl, rfl⟩
    · simpa using settlePanel_we_sq (checkPanel (drainSlot s))

/-- Of a POP only its string drain step speaks to the engine and the queue. -/
theorem popStep_we_sq (s : State) :
    (popStep s).1.we = (wstrDrainStep s).we ∧ (popStep s).1.sq = (wstrDrainStep s).sq := by
  rw [popStep_eq]
  exact popFrame_we_sq _ _

theorem mreadStep_we (s : State) : (mreadStep s).1.we = s.we := by
  unfold mreadStep filterModule
  dsimp only
  split_ifs <;> rfl

theorem memWrite_we_of_ne {r : Byte} (h : r ≠ 0x0B#8) (s : State) (v : Byte) :
    (memWrite s r v).we = s.we := by
  rcases memWrite_cases s r v with ⟨-, e⟩ | ⟨hpart, -⟩ | ⟨_, e⟩ | ⟨_, e⟩ | ⟨_, e⟩ | ⟨_, e⟩ | e
  case inr.inl => exact absurd hpart h
  all_goals rw [e]

/-- The expiry of the timer leaves the engine alone, or completes a frame, which may release the hold. -/
theorem timerExpiry_we (clk data : Bool) (s : State) :
    (timerExpiry clk data s).we = s.we ∨ (timerExpiry clk data s).we =
      holdRelease s.cfg s.ctl.wr_en (hasCmd s.bs) (byteAt s.bs.acc_p 0) s.we := by
  rcases timerExpiry_cases clk data s with ⟨-, e⟩ | ⟨-, -, e⟩ | ⟨-, -, -, e⟩ | ⟨-, -, -, e⟩ <;> rw [e]
  · exact .inl rfl
  · exact .inl rfl
  · exact .inr rfl
  · exact .inl rfl

/-! ## The line (R66, R67, R113) -/

/-- Every operation but EV_FALL keeps the line as it is or releases it. -/
theorem exec_wr_line_of_ne_evFall {i : Instr} {s t : State} (hfall : i ≠ .evFall)
    (hnext : exec i s = .next t) : t.we.wr_line = s.we.wr_line ∨ t.we.wr_line = false := by
  cases hport : i.port with
  | host =>
    by_cases hreset : i = .reset
    · subst hreset
      rw [conclude_next hnext]
      exact .inr rfl
    · exact .inl (congrArg (·.we.wr_line) (exec_host_keeps hport hreset hnext).part)
  | bus =>
    cases i with
    | evRise => rw [conclude_next hnext]; exact .inr rfl
    | evFall => exact absurd rfl hfall
    | evTimer clk data =>
      rw [conclude_next hnext]
      obtain ⟨st, skip, hhold⟩ := holdRelease_frame s.cfg s.ctl.wr_en (hasCmd s.bs)
        (byteAt s.bs.acc_p 0) s.we
      rcases timerExpiry_we clk data (beginStep s) with e | e
      · exact .inl (congrArg (·.wr_line) e)
      · exact .inl (congrArg (·.wr_line) (e.trans hhold))
    | _ => cases hport

theorem emitOnFall_of_disabled {s : State} (h : s.ctl.wr_en = false) : emitOnFall s = s.we := by
  simp [emitOnFall, h]

theorem emitOnFall_of_rest {s : State} (h : s.we.wr_state = .idle ∨ s.we.wr_state = .astHold) :
    emitOnFall s = s.we := by
  simp [emitOnFall, writeStep_of_rest s.cfg h]

theorem exec_evFall_we {s t : State} (hnext : exec .evFall s = .next t) : t.we = emitOnFall s := by
  rw [conclude_next hnext]
  rfl

/-- Settles O17: EV_FALL alone may assert the line, and changes nothing with the keypad disabled or the engine
at rest. -/
theorem onlyFallingEdgesAssertTheLine : Obligations.OnlyFallingEdgesAssertTheLine := by
  refine ⟨fun i s t hnext hoff hon => ?_, fun p T B cmd w h => writeStep_of_rest p h T B cmd⟩
  have hchanged : t.we.wr_line ≠ s.we.wr_line := by simp [hoff, hon]
  by_cases hfall : i = .evFall
  · subst hfall
    have hemit : emitOnFall s ≠ s.we := fun e =>
      hchanged (congrArg (·.wr_line) ((exec_evFall_we hnext).trans e))
    exact ⟨rfl, eq_true_of_ne_false fun h => hemit (emitOnFall_of_disabled h),
      fun h => hemit (emitOnFall_of_rest (.inl h)), fun h => hemit (emitOnFall_of_rest (.inr h))⟩
  · rcases exec_wr_line_of_ne_evFall hfall hnext with h | h
    · exact absurd h hchanged
    · exact absurd (hon.symm.trans h) nofun

/-! ## The disabled keypad (R108, R149, D44) -/

section
variable {s : State} (hen : s.ctl.wr_en = false)
include hen

theorem submitChar_of_disabled (c : Byte) : submitChar c s = (s, 0x15#8) := by
  simp only [submitChar, submit_of_disabled hen]

/-- A string under way is abandoned: at its terminator, or since its next character is refused. -/
theorem wstrDrainStep_of_disabled (hactive : s.sq.wstr_active = true) (hidle : s.we.wr_state = .idle) :
    wstrDrainStep s = { s with sq := abandonQueue s.sq } := by
  by_cases hstop : atTerminator s.sq = true
  · exact wstrDrainStep_of_terminator hactive hidle hstop
  · rw [wstrDrainStep_of_char hactive hidle hstop, submit_of_disabled hen]
    rfl

theorem wstrDrainStep_we_of_disabled : (wstrDrainStep s).we = s.we := by
  by_cases h : s.sq.wstr_active = true ∧ s.we.wr_state = .idle
  · obtain ⟨hactive, hidle⟩ := h
    rw [wstrDrainStep_of_disabled hen hactive hidle]
  · rw [wstrDrainStep_of_rest]
    rwa [not_and_or, Bool.not_eq_true] at h

theorem timerExpiry_we_of_disabled (clk data : Bool) : (timerExpiry clk data s).we = s.we := by
  rcases timerExpiry_we clk data s with e | e
  · exact e
  · rw [e, holdRelease_of_disabled hen]

/-- With the keypad disabled only EV_RISE, WR to WR_PART and RESET write the engine. -/
theorem exec_we_of_disabled {i : Instr} {t : State} (hnext : exec i s = .next t) (hreset : i ≠ .reset)
    (hrise : i ≠ .evRise) (hpart : ∀ v, i ≠ .wr 0x0B v) : t.we = s.we := by
  have hbegin : (beginStep s).ctl.wr_en = false := hen
  cases i <;> rw [conclude_next hnext, setResult_we]
  case nop | wstrClr | wstrGo | clr | rd => rfl
  case crc => exact checkPanel_we _
  case pop => rw [(popStep_we_sq _).1, wstrDrainStep_we_of_disabled hbegin, beginStep_we]
  case mread => exact mreadStep_we _
  case wkey c => rw [submitChar_of_disabled hbegin, beginStep_we]
  case wstrPush c => rw [pushChar_of_disabled c hbegin, beginStep_we]
  case wr idx val => exact memWrite_we_of_ne (fun h => hpart val (congrArg (Instr.wr · val) h)) _ _
  case reset => exact absurd rfl hreset
  case evRise => exact absurd rfl hrise
  case evFall => exact emitOnFall_of_disabled hen
  case evTimer clk data => exact timerExpiry_we_of_disabled hbegin clk data
end

/-- Settles O60: the operations that reach the engine, then the answers to keys and strings. -/
theorem disabledKeypadIsFrozen : Obligations.DisabledKeypadIsFrozen := by
  intro i s t hen hnext
  have hbegin : (beginStep s).ctl.wr_en = false := hen
  refine ⟨exec_we_of_disabled hen hnext, ?_, ?_, ?_, ?_, ?_⟩
  · rintro rfl
    rw [conclude_next hnext]; rfl
  · rintro v rfl
    rw [conclude_next hnext]; rfl
  · rintro c rfl
    rw [conclude_next hnext, submitChar_of_disabled hbegin]; rfl
  · rintro c rfl
    rw [conclude_next hnext, pushChar_of_disabled c hbegin]
    exact ⟨rfl, rfl⟩
  · rintro rfl hactive hidle
    rw [conclude_next hnext, setResult_sq, (popStep_we_sq _).2,
      wstrDrainStep_of_disabled hbegin hactive hidle]
    rfl

end Sys2Proof.Machine
end

section
/-! SUPPORT. No condition stops the block (60_exceptions.md section 1, R124): every operation, an illegal word
and so every step answers a next state, and the proof of O9. -/

namespace Sys2Proof.Machine

theorem conclude_goesOn (r : State × Byte) : GoesOn (conclude r) := ⟨_, conclude_eq r⟩

/-- The meaning of every operation ends in `conclude`. -/
theorem exec_goesOn (i : Instr) (s : State) : GoesOn (exec i s) := by
  cases i <;> exact conclude_goesOn _

/-- An illegal word concludes too, with 0xFF and no condition (R57). -/
theorem illegalWord_goesOn (s : State) : GoesOn (illegalWord s) := conclude_goesOn _

theorem runPresented_goesOn (p : Presented) (s : State) : GoesOn (runPresented p s) := by
  by_cases h : ∃ i, decodeAt p.port p.word = .ok i
  · obtain ⟨i, hi⟩ := h
    rw [runPresented_of_decodeAt_ok hi]
    exact exec_goesOn i _
  · rw [runPresented_of_decodeAt_ne_ok (not_exists.1 h)]
    exact illegalWord_goesOn _

/-- Settles O9: the step runs the operation it has taken. -/
theorem everyStepGoesOn : Obligations.EveryStepGoesOn :=
  fun s => runPresented_goesOn (takePresented s).1 (takePresented s).2

end Sys2Proof.Machine
end

section
/-! SUPPORT. The reset step and the overflow hazard (70_reset_and_hazards.md sections 1 and 3, R137 to R139, R148):
the arrays as power-up leaves them, every register after it, and a frame dropped at a full buffer but kept in
its cache; the proofs of O18, O19, O20 and O38. -/

namespace Sys2Proof.Machine

/-! ## The arrays after the reset step (R137) -/

section
variable (p : Params)

theorem powerUp_slot (k : Nat) : vget (powerUp p).fb.buf_data k zeroFrame = zeroFrame := vget_replicate ..

theorem powerUp_ccEntry (k : Nat) : ccEntry (powerUp p).rf k = ⟨0, 0, emptyCache⟩ := vget_replicate ..

/-- No command is in a table of zero bytes (R27). -/
theorem tableBit_replicate_zero (c : Byte) : tableBit (Vector.replicate 32 0) c = false := by
  rw [tableBit, vget_replicate]
  exact BitVec.getLsbD_zero
end

/-- Settles O18: the scalar elements are the fields of `powerUp`, each array holds one value throughout. -/
theorem resetStepValues : Obligations.ResetStepValues := by
  intro p
  refine ⟨⟨rfl, rfl, rfl, rfl, rfl⟩, ⟨rfl, rfl, rfl, rfl, rfl⟩, fun i => ?_, ⟨rfl, rfl, rfl, fun k => ?_⟩,
    ⟨rfl, rfl, rfl, rfl, rfl, rfl, rfl⟩, ⟨fun k => ?_, rfl, rfl⟩,
    ⟨rfl, rfl, rfl, rfl, rfl, rfl, rfl, rfl, rfl⟩, fun c => ?_, ⟨fun k => ?_, rfl⟩, ⟨rfl, rfl, rfl⟩,
    ⟨rfl, rfl, rfl, rfl, rfl, rfl, rfl, rfl, rfl, rfl, rfl⟩, ⟨rfl, rfl, rfl⟩⟩
  · have zero := byteAt_zeroFrame i
    refine ⟨zero, zero, zero, zero, zero, zero, zero, fun k => ?_, fun k => ?_, vget_replicate ..⟩
    · rw [powerUp_slot, zero]
      rfl
    · rw [powerUp_ccEntry]
      exact zero
  · rw [powerUp_ccEntry]
    rfl
  · exact ⟨vget_replicate .., vget_replicate ..⟩
  · exact ⟨tableBit_replicate_zero c, tableBit_replicate_zero c⟩
  · rw [powerUp_ccEntry]
    exact ⟨rfl, rfl⟩

/-! ## RESET (R138) -/

theorem exec_reset (s : State) :
    exec .reset s = .next (setResult (resetStep (beginStep s)) 0x00#8) := rfl

/-- Settles O19: RESET ends in the reset step, which takes every unit from `powerUp`. -/
theorem resetPerformsTheResetStep : Obligations.ResetPerformsTheResetStep :=
  ⟨fun s => ⟨_, exec_reset s, rfl, rfl, rfl, rfl, rfl, rfl, rfl, rfl, rfl⟩, rfl, rfl⟩

/-! ## The registers after the reset step (R139) -/

section
variable (p : Params) {r : Byte}

theorem ctrlByte_powerUp :
    ctrlByte (powerUp p).ctl = if p.write_line_present then 0x06#8 else 0x02#8 := by
  have bits : ∀ present, BitVec.ofBoolListLE [false, true, present, false, false, false, false, false] =
      if present then 0x06#8 else 0x02#8 := by decide
  exact bits p.write_line_present

/-- After reset only WR_READY stands in STATUS. -/
theorem statusByte_powerUp : statusByte (powerUp p) = 0x10#8 := by
  have bits : BitVec.ofBoolListLE [false, false, false, false, true, false, false, false] = 0x10#8 := by
    decide
  exact bits

theorem ofBoolListLE_replicate_false : BitVec.ofBoolListLE (List.replicate 8 false) = 0x00#8 := by decide

theorem wrStateByte_powerUp : wrStateByte (powerUp p).we = 0x00#8 := by
  have code (k : Nat) : (wrStateCode (powerUp p).we.wr_state).getLsbD k = false := BitVec.getLsbD_zero
  rw [wrStateByte, code, code, code]
  exact ofBoolListLE_replicate_false

theorem linesByte_powerUp : linesByte (powerUp p) = 0x00#8 := ofBoolListLE_replicate_false

/-- The rows after CTRL and below the frames, one by one. -/
theorem memRead_powerUp_low {k : Nat} (hk : k < 0x10) (hctrl : 0 < k) :
    memRead (powerUp p) (BitVec.ofNat 8 k) =
      if k = 0x01 then 0x10#8 else if k = 0x0B then 0x01#8 else 0x00#8 := by
  obtain rfl | ⟨hlo, hhi⟩ | rfl | hlo : k = 0x01 ∨ (0x02 ≤ k ∧ k < 0x0A) ∨ k = 0x0A ∨ 0x0B ≤ k := by omega
  · exact statusByte_powerUp p
  · interval_cases k <;> rfl
  · exact wrStateByte_powerUp p
  · interval_cases k <;> rfl

/-- LINES and the counters above it. -/
theorem memRead_powerUp_lines {k : Nat} (hk : k < 4) :
    memRead (powerUp p) (BitVec.ofNat 8 (0x81 + k)) = 0x00#8 := by
  obtain rfl | hcounter : k = 0 ∨ 0 < k := Nat.eq_zero_or_pos k
  · exact linesByte_powerUp p
  · interval_cases k <;> rfl

/-- From the panel frame on, the rows that WR cannot write show frames of zeros, LINES and the counters, and
reserved indices. -/
theorem memRead_powerUp_of_unwritable (hr : Unwritable r) (hframes : 0x10 ≤ r.toNat) :
    memRead (powerUp p) r = 0x00#8 := by
  obtain ⟨-, -, hbelow | habove⟩ := hr
  · by_cases hpanel : r.toNat < 0x20
    · rw [memRead_panelData _ (k := r.toNat - 0x10) (by omega) (by omega)]
      exact byteAt_zeroFrame _
    · rw [memRead_modData _ (k := r.toNat - 0x20) (by omega) (by omega)]
      exact byteAt_zeroFrame _
  · by_cases hreserved : 0x85 ≤ r.toNat
    · exact memRead_reserved _ hreserved
    · have hrow : r = BitVec.ofNat 8 (0x81 + (r.toNat - 0x81)) := by bv_omega
      rw [hrow]
      exact memRead_powerUp_lines p (by omega)

/-- From the panel frame on every register is zero. -/
theorem memRead_powerUp_of_ge (hframes : 0x10 ≤ r.toNat) : memRead (powerUp p) r = 0x00#8 := by
  rcases index_cases r with rfl | rfl | ⟨k, hk, hr⟩ | ⟨k, hk, hr⟩ | ⟨k, hk, hr⟩ | ⟨k, hk, hr⟩ | rfl | hr
  · exact absurd hframes (by decide)
  · exact absurd hframes (by decide)
  · rw [memRead_exempt _ hr hk]
    exact vget_replicate ..
  · rw [memRead_query _ hr hk]
    exact vget_replicate ..
  · rw [memRead_ccCode _ hr hk, powerUp_ccEntry]
    rfl
  · rw [memRead_ccLen _ hr hk, powerUp_ccEntry]
    rfl
  · rfl
  · exact memRead_powerUp_of_unwritable p hr hframes
end

/-- Settles O20: CTRL alone depends on the parameters; the rows below the frames, then all above. -/
theorem registerValuesAfterReset : Obligations.RegisterValuesAfterReset := by
  intro p r
  by_cases hctrl : r = 0x00#8
  · rw [if_pos hctrl, hctrl]
    exact ctrlByte_powerUp p
  rw [if_neg hctrl]
  by_cases hlow : r.toNat < 0x10
  · simpa [← BitVec.toNat_inj] using memRead_powerUp_low p hlow (by bv_omega)
  · rw [memRead_powerUp_of_ge p (by omega), if_neg (by bv_omega), if_neg (by bv_omega)]

/-! ## A frame dropped for overflow (R81, R82, R148) -/

section
variable {s : State} {f : CapturedFrame} (hlong : 8 ≤ f.bits.toNat)
include hlong

theorem captureFrame_fb_of_overflow (hnew : ¬IsrRedundant s.cfg f.data s.rf) (hfull : s.fb.buf_len = 10) :
    (captureFrame s f).fb = { s.fb with ovf := true } := by
  have hten : s.fb.buf_len.toNat = 10 := by rw [hfull]; rfl
  rw [captureFrame, complete_fb, admitFrame_of_not_isrRedundant hlong hnew,
    bufferAfter_admitted_of_full hten]

theorem captureFrame_of_isrRedundant (hred : IsrRedundant s.cfg f.data s.rf) :
    (captureFrame s f).fb = s.fb ∧ (captureFrame s f).rf = s.rf := by
  rw [captureFrame, complete_fb, complete_rf, admitFrame_of_isrRedundant hlong hred]
  exact ⟨rfl, rfl⟩

/-- The caches change before the capacity test: whatever the room, a monitored frame is redundant afterwards. -/
theorem isrRedundant_captureFrame
    (hcode : byteAt f.data 0 = s.cfg.isr_code_a ∨ byteAt f.data 0 = s.cfg.isr_code_b) :
    IsrRedundant s.cfg f.data (captureFrame s f).rf := by
  by_cases ha : byteAt f.data 0 = s.cfg.isr_code_a
  · rw [isrRedundant_of_codeA ha, captureFrame, complete_rf, admitFrame_of_codeA hlong ha,
      cacheAfter_full, redundantIn_sixteen_iff]
    exact ⟨rfl, fun _ _ => rfl⟩
  · have hb := hcode.resolve_left ha
    rw [isrRedundant_of_codeB ha hb, captureFrame, complete_rf, admitFrame_of_codeB hlong ha hb,
      cacheAfter_full, redundantIn_sixteen_iff]
    exact ⟨rfl, fun _ _ => rfl⟩
end

/-- Settles O38: the dropped frame is in its cache, so wherever that filter stands it is redundant. -/
theorem overflowedFrameIsStillRemembered : Obligations.OverflowedFrameIsStillRemembered := by
  intro s u f hlong hcode hfull hcfg hrf
  refine ⟨fun hnew => captureFrame_fb_of_overflow hlong hnew hfull, ?_⟩
  have hred : IsrRedundant u.cfg f.data u.rf := by
    rw [hcfg, hrf]
    exact isrRedundant_captureFrame hlong hcode
  exact captureFrame_of_isrRedundant hlong hred

end Sys2Proof.Machine
end

section
/-! SUPPORT. The parameters (spec/00_scope.md section 4, R7) under every step, and the state the machine starts
from (70_reset_and_hazards.md section 1, R137); the proofs of O10 and O13. -/

namespace Sys2Proof.Machine

/-! ## The state after reset (R137) -/

/-- Settles O10: the reset state is the power-up state of the hardware's parameters. -/
theorem resetMeetsTheInvariant : Obligations.ResetMeetsTheInvariant := by
  have hpower : ∀ p, (powerUp p).Inv ∧ (powerUp p).FramesClear :=
    fun p => ⟨powerUp_inv p, powerUp_framesClear p⟩
  exact ⟨hpower Config.hardware, hpower⟩

/-! ## The parameters under every operation (R7) -/

@[simp] theorem hostPart_cfg (s : State) : (hostPart s).cfg = s.cfg := rfl
@[simp] theorem busPart_cfg (s : State) : (busPart s).cfg = s.cfg := rfl

theorem BusEventKeeps.cfg {s t : State} (h : BusEventKeeps s t) : t.cfg = s.cfg := by
  rw [← hostPart_cfg t, h.part, hostPart_cfg]

theorem HostCommandKeeps.cfg {s t : State} (h : HostCommandKeeps s t) : t.cfg = s.cfg := by
  rw [← busPart_cfg t, h.part, busPart_cfg]

/-- The parameters are in both parts of the state, so the part an operation keeps holds them; RESET keeps
neither part, and powers up with the parameters it finds. -/
theorem exec_cfg {i : Instr} {s t : State} (hnext : exec i s = .next t) : t.cfg = s.cfg := by
  cases hport : i.port with
  | bus => exact (exec_bus_keeps hport hnext).cfg
  | host =>
    by_cases hreset : i = .reset
    · rw [hreset, exec_reset] at hnext
      injection hnext with hnext
      rw [← hnext, setResult_cfg, resetStep_cfg, beginStep_cfg]
    · exact (exec_host_keeps hport hreset hnext).cfg

theorem illegalWord_cfg {s t : State} (hnext : illegalWord s = .next t) : t.cfg = s.cfg := by
  rw [conclude_next hnext, setResult_cfg, beginStep_cfg]

theorem runPresented_cfg {p : Presented} {s t : State} (hnext : runPresented p s = .next t) :
    t.cfg = s.cfg := by
  rw [← latchInputs_cfg p s]
  unfold runPresented at hnext
  split at hnext
  · exact exec_cfg hnext
  · exact illegalWord_cfg hnext

/-- Settles O13: neither taking the operation nor running it writes the parameters. -/
theorem noStepWritesTheParameters : Obligations.NoStepWritesTheParameters := by
  intro s t hnext
  calc t.cfg = (takePresented s).2.cfg := runPresented_cfg hnext
    _ = s.cfg := takePresented_cfg s

end Sys2Proof.Machine
end
